-- ==== Sys2Proof/Word.lean ====
section
/-! DEFINITION. The widths of the block: the 8-bit micro-op word and SIPO vector, the 4-bit fields, the 7-bit
segment pattern, and the level of a one-bit register or pin (00_scope.md R6, R7; 10_state.md R21 to R31). -/

namespace Sys2Proof

/-- A micro-op word (R70), and each of the SIPO's two 8-stage vectors (R31). -/
abbrev Byte := BitVec 8

/-- The fields `op` and `arg` of a word (R70), `upc` (R21) and `val` (R22). -/
abbrev Nibble := BitVec 4

/-- A SegmentPattern: bit 6 is segment a, bit 0 is segment g, 1 is ON (R24). -/
abbrev Pattern := BitVec 7

/-- A one-bit flag or a pin's level: `true` is 1, `false` is 0 (R12, R28, R29). -/
abbrev Level := Bool

end Sys2Proof
end

