-- ==== Sys2Proof/Syntax.lean ====
section
/-! DEFINITION. The micro-operations: one constructor per row of spec/opcode_table.json (30_encoding.md R72), the raw
fields of a word (R70), and the pseudo-operations (R78). -/

namespace Sys2Proof

/-- The two push-buttons; as NTF's operand `w`, left is 0 and right is 1 (R73). -/
inductive Button where
  | left
  | right
  deriving DecidableEq, Repr, Inhabited

/-- The 17 micro-operations, in the order of R72. -/
inductive Instr where
  /-- SRST: hard-reset the SIPO (R126). -/
  | srst
  /-- ENC: look up the frame's pattern (R103). -/
  | enc
  /-- SHB 0: shift slot 0 (R124). -/
  | shb0
  /-- SHB 1: shift slot 1 (R124). -/
  | shb1
  /-- SHB 2: shift slot 2 (R124). -/
  | shb2
  /-- SHB 3: shift slot 3 (R124). -/
  | shb3
  /-- SHB 4: shift slot 4 (R124). -/
  | shb4
  /-- SHB 5: shift slot 5 (R124). -/
  | shb5
  /-- SHB 6: shift slot 6 (R124). -/
  | shb6
  /-- PLL: poll the left flag (R175). -/
  | pll
  /-- PLR: poll the right flag (R176). -/
  | plr
  /-- DRV: drive the digit-enable lines (R153). -/
  | drv
  /-- LAT: commit the shift stage to the outputs (R125). -/
  | lat
  /-- DLY: wait the frame delay (R201). -/
  | dly
  /-- INC: advance the frame value (R202). -/
  | inc
  /-- NTF L: one rising edge on the left button (R171). -/
  | ntfL
  /-- NTF R: one rising edge on the right button (R171). -/
  | ntfR
  deriving DecidableEq, Repr, Inhabited

/-- The two fields of the one format `U`: `op` is word[7:4] and `arg` is word[3:0] (R70). -/
structure Fields where
  op : Nibble
  arg : Nibble
  deriving DecidableEq, Repr

/-- The pseudo-operations, which name the source's composite operations (R78). -/
inductive Pseudo where
  /-- XMIT: `transmit(pattern)`. -/
  | xmit
  /-- POLL: the two poll steps of a frame. -/
  | poll
  /-- FRAME: one iteration of the scan loop. -/
  | frame
  deriving DecidableEq, Repr

end Sys2Proof
end

