-- ==== Sys2Proof/WellFormed.lean ====
section
/-! DEFINITION. When the fields of a word are those of a micro-op, one check for each case of 30_encoding.md R74, and
when an instruction's shift slot exists (R6 `SHIFTS_PER_FRAME`). -/

namespace Sys2Proof

/-- `op` is assigned: not 0x0 and not in 0xB to 0xF (R72, R74). -/
def Fields.opAssigned (f : Fields) : Bool := 1 ≤ f.op.toNat && f.op.toNat ≤ 0xA

/-- Every bit of `arg` that the operation does not use is 0 (R73, R74): `arg[3]` for SHB, `arg[3:1]` for NTF, all of
`arg` for every other operation. -/
def Fields.unusedArgZero (f : Fields) : Bool :=
  if f.op = 0x3#4 then f.arg.toNat < 8
  else if f.op = 0xA#4 then f.arg.toNat < 2
  else f.arg = 0x0#4

/-- The shift slot exists: `SHB 7` does not (R74). -/
def Fields.slotExists (f : Fields) : Bool := !(f.op = 0x3#4 && f.arg = 0x7#4)

/-- The word with these fields is valid (R74). -/
def Fields.wellFormed (f : Fields) : Bool := f.opAssigned && f.unusedArgZero && f.slotExists

/-- The shift slot an instruction names, if it has one (R73). -/
def Instr.slot : Instr → Option Nat
  | .shb0 => some 0 | .shb1 => some 1 | .shb2 => some 2 | .shb3 => some 3
  | .shb4 => some 4 | .shb5 => some 5 | .shb6 => some 6
  | .srst => none | .enc => none | .pll => none | .plr => none | .drv => none | .lat => none
  | .dly => none | .inc => none | .ntfL => none | .ntfR => none

/-- An instruction is well formed when its shift slot, if it has one, is one of the seven (R6, R73). Every constructor
is: the ill-formed words are those whose `Fields` are not `wellFormed`. -/
def Instr.wellFormed (i : Instr) : Bool := i.slot.all (· < 7)

end Sys2Proof
end

