-- ==== Sys2Proof/Decode.lean ====
section
/-! DEFINITION. The decoder, total on any bytes and rejecting by name, and the encoder, both written from
30_encoding.md R70 to R76; and `decodeTableWord`, the decoder on a numeral. -/

namespace Sys2Proof

/-- Why a decoder answers "invalid" (R74). -/
inductive Reject where
  /-- `op` is 0x0 or in 0xB to 0xF. -/
  | reservedOp
  /-- A bit of `arg` that R73 does not use is 1. -/
  | unusedArgBit
  /-- `SHB 7`: there is no eighth shift slot. -/
  | noEighthSlot
  /-- There is no byte to decode. -/
  | noWord
  deriving DecidableEq, Repr

/-- `op = word[7:4]` and `arg = word[3:0]` (R71). -/
def Fields.ofWord (w : Byte) : Fields := ⟨w.extractLsb' 4 4, w.extractLsb' 0 4⟩

/-- `word = {op[3:0], arg[3:0]}` (R71). -/
def Fields.toWord (f : Fields) : Byte := f.op ++ f.arg

/-- An operation without operand: every bit of `arg` must be 0 (R73, R74). -/
def decodeBare (i : Instr) (arg : Nibble) : Except Reject Instr :=
  if arg = 0x0#4 then .ok i else .error .unusedArgBit

/-- `SHB i`: `arg[3]` must be 0, `i = zext_3(arg[2:0])`, and there is no slot 7 (R73, R74). -/
def decodeShift (arg : Nibble) : Except Reject Instr :=
  if arg.getLsbD 3 then .error .unusedArgBit
  else
    match (arg.extractLsb' 0 3).toNat with
    | 0 => .ok .shb0
    | 1 => .ok .shb1
    | 2 => .ok .shb2
    | 3 => .ok .shb3
    | 4 => .ok .shb4
    | 5 => .ok .shb5
    | 6 => .ok .shb6
    | _ => .error .noEighthSlot

/-- `NTF w`: `arg[3:1]` must be 000 and `w = arg[0]`, 0 for L and 1 for R (R73). -/
def decodeNotify (arg : Nibble) : Except Reject Instr :=
  if arg.extractLsb' 1 3 = 0x0#3 then .ok (if arg.getLsbD 0 then .ntfR else .ntfL)
  else .error .unusedArgBit

/-- The operation code map (R72). -/
def decodeFields (f : Fields) : Except Reject Instr :=
  match f.op.toNat with
  | 0x1 => decodeBare .srst f.arg
  | 0x2 => decodeBare .enc f.arg
  | 0x3 => decodeShift f.arg
  | 0x4 => decodeBare .pll f.arg
  | 0x5 => decodeBare .plr f.arg
  | 0x6 => decodeBare .drv f.arg
  | 0x7 => decodeBare .lat f.arg
  | 0x8 => decodeBare .dly f.arg
  | 0x9 => decodeBare .inc f.arg
  | 0xA => decodeNotify f.arg
  | _ => .error .reservedOp

/-- The micro-op of a word, or why it is invalid (R71, R74). -/
def decodeWord (w : Byte) : Except Reject Instr := decodeFields (Fields.ofWord w)

/-- The micro-op at the head of a list of bytes and the bytes after it: every micro-op is one word (R76). -/
def decode : List Byte → Except Reject (Instr × List Byte)
  | [] => .error .noWord
  | w :: rest =>
    match decodeWord w with
    | .ok i => .ok (i, rest)
    | .error e => .error e

/-- The decoder on a row of the opcode table: one 8-bit word (R70, R76), so a numeral of more than 8 bits is no row. -/
def decodeTableWord (nbits w : Nat) : Option Instr :=
  if w % 2 ^ nbits < 2 ^ 8 then (decodeWord (BitVec.ofNat 8 (w % 2 ^ nbits))).toOption else none

/-- The `op` column of R72. -/
def Instr.op : Instr → Nibble
  | .srst => 0x1#4
  | .enc => 0x2#4
  | .shb0 => 0x3#4
  | .shb1 => 0x3#4
  | .shb2 => 0x3#4
  | .shb3 => 0x3#4
  | .shb4 => 0x3#4
  | .shb5 => 0x3#4
  | .shb6 => 0x3#4
  | .pll => 0x4#4
  | .plr => 0x5#4
  | .drv => 0x6#4
  | .lat => 0x7#4
  | .dly => 0x8#4
  | .inc => 0x9#4
  | .ntfL => 0xA#4
  | .ntfR => 0xA#4

/-- The `arg` column of R72: the slot for SHB, `w` for NTF, 0000 otherwise (R73). -/
def Instr.arg : Instr → Nibble
  | .shb0 => 0x0#4
  | .shb1 => 0x1#4
  | .shb2 => 0x2#4
  | .shb3 => 0x3#4
  | .shb4 => 0x4#4
  | .shb5 => 0x5#4
  | .shb6 => 0x6#4
  | .ntfL => 0x0#4
  | .ntfR => 0x1#4
  | .srst => 0x0#4
  | .enc => 0x0#4
  | .pll => 0x0#4
  | .plr => 0x0#4
  | .drv => 0x0#4
  | .lat => 0x0#4
  | .dly => 0x0#4
  | .inc => 0x0#4

/-- The word of an instruction (R71, R72). -/
def encode (i : Instr) : Byte := Fields.toWord ⟨i.op, i.arg⟩

/-- NTF is the one operation that SCAN may not execute: it belongs to the edge agents (R75). -/
def Instr.isNotify : Instr → Bool
  | .ntfL => true
  | .ntfR => true
  | .srst => false | .enc => false | .shb0 => false | .shb1 => false | .shb2 => false | .shb3 => false
  | .shb4 => false | .shb5 => false | .shb6 => false | .pll => false | .plr => false | .drv => false
  | .lat => false | .dly => false | .inc => false

end Sys2Proof
end

