-- ==== Sys2Proof/Config.lean ====
section
/-! DEFINITION. What an implementation fixes: the parameters of 00_scope.md R6 as plain data; and what the spec
leaves open to the schedule: the turns of the agents (R9) and the free value that chooses among them. -/

namespace Sys2Proof

/-- `EMIT_ORDER` (R6, R123): the order in which a pattern's bits are sent. -/
inductive EmitOrder where
  /-- `IDX0_FIRST`, the default: bit 0 (segment g) first. -/
  | idx0First
  /-- `IDX6_FIRST`: bit 6 (segment a) first. -/
  | idx6First
  deriving DecidableEq, Repr, Inhabited

/-- `SR_ENTRY` (R6, R127, R128): the stage of the SIPO at which `SER` enters. -/
inductive SrEntry where
  /-- `Q0`, the default: `SER` enters stage 0 and stages move toward 7. -/
  | q0
  /-- `Q7`: `SER` enters stage 7 and stages move toward 0. -/
  | q7
  deriving DecidableEq, Repr, Inhabited

/-- `RIGHT_POLICY` (R6, R194): what happens to a pending right event in a frame where left was taken. -/
inductive RightPolicy where
  /-- `DEFER`, the default: PLR is skipped and the right event stays pending. -/
  | defer
  /-- `DISCARD`: PLR runs, clears the right flag and does not move the position. -/
  | discard
  deriving DecidableEq, Repr, Inhabited

/-- The seven segments of a digit (R15, R24). -/
inductive Segment where
  | a | b | c | d | e | f | g
  deriving DecidableEq, Repr, Inhabited

/-- `SEG_WIRE` (R6, R131): for each segment, the index of the SIPO output wired to its cathode. -/
structure SegWire where
  a : BitVec 3
  b : BitVec 3
  c : BitVec 3
  d : BitVec 3
  e : BitVec 3
  f : BitVec 3
  g : BitVec 3
  deriving DecidableEq, Repr

/-- The parameters of the block (R6). They are configuration: no step writes them (R20). State holds them so that
a claim about every state is a claim about every value of them (DESIGN CHOICE, log 6). -/
structure Params where
  /-- `EMIT_ORDER`. -/
  emitOrder : EmitOrder
  /-- `SR_ENTRY`. -/
  srEntry : SrEntry
  /-- `SEG_WIRE`. -/
  segWire : SegWire
  /-- `RIGHT_POLICY`. -/
  rightPolicy : RightPolicy
  /-- `GLYPH`, the 16 entries of the segment ROM `LUT` (R51, R101). -/
  glyph : Vector Pattern 16
  /-- `FRAME_DELAY` in microseconds; timing only, no rule depends on it (R6, R263; log 13). -/
  frameDelayMicros : Nat
  deriving DecidableEq, Repr

/-- Whose turn it is in the interleaving of R59: an agent of R9, or the environment driving `rst_n` (R30, R250). -/
inductive Turn where
  /-- SCAN executes the micro-op at `upc` (R191). -/
  | scan
  /-- EDGE_L: one rising edge on `BTN_L`, the event NTF L (R171, R173). -/
  | edgeL
  /-- EDGE_R: one rising edge on `BTN_R`, the event NTF R (R171, R173). -/
  | edgeR
  /-- `rst_n` is driven to 0 (R250, R254). -/
  | resetLow
  /-- `rst_n` is driven to 1 (R250). -/
  | resetHigh
  deriving DecidableEq, Repr, Inhabited

/-- FREE VALUE: the n-th turn that no script decides. "The order in which agents are scheduled is left open.
Proofs must hold for every schedule" (R9, D27). It has no body, so no proof can use a value of it (log 3). -/
opaque Config.freeTurn : Nat → Turn

end Sys2Proof
end

