-- ==== Sys2Proof/Machine/Defaults.lean ====
section
/-! DEFINITION. The contents the spec fixes: the glyph table (40_segment_lut_encoder.md R101), the microprogram
(44_display_scan_fsm.md R192), the glyph-correct wiring (41_shift_register_serializer.md R131), and the default of
every parameter (00_scope.md R6). -/

namespace Sys2Proof

/-- The bit of a SegmentPattern that stands for a segment: a is bit 6, g is bit 0 (R24). -/
def Segment.bit : Segment → Nat
  | .a => 6
  | .b => 5
  | .c => 4
  | .d => 3
  | .e => 2
  | .f => 1
  | .g => 0

/-- The SIPO output index wired to a segment's cathode (R131). -/
def SegWire.index (w : SegWire) : Segment → BitVec 3
  | .a => w.a
  | .b => w.b
  | .c => w.c
  | .d => w.d
  | .e => w.e
  | .f => w.f
  | .g => w.g

/-- The index at which a complete frame leaves the complement of pattern bit `bx` (R131). -/
def glyphIndex (emit : EmitOrder) (entry : SrEntry) (bx : Nat) : BitVec 3 :=
  match emit, entry with
  | .idx0First, .q0 => BitVec.ofNat 3 (6 - bx)
  | .idx0First, .q7 => BitVec.ofNat 3 (bx + 1)
  | .idx6First, .q0 => BitVec.ofNat 3 bx
  | .idx6First, .q7 => BitVec.ofNat 3 (7 - bx)

/-- The glyph-correct wiring, the default of `SEG_WIRE` (R131, D8). -/
def glyphCorrectWire (emit : EmitOrder) (entry : SrEntry) : SegWire where
  a := glyphIndex emit entry Segment.a.bit
  b := glyphIndex emit entry Segment.b.bit
  c := glyphIndex emit entry Segment.c.bit
  d := glyphIndex emit entry Segment.d.bit
  e := glyphIndex emit entry Segment.e.bit
  f := glyphIndex emit entry Segment.f.bit
  g := glyphIndex emit entry Segment.g.bit

/-- The wiring of these parameters is the glyph-correct one (R131). -/
abbrev Params.GlyphCorrect (p : Params) : Prop := p.segWire = glyphCorrectWire p.emitOrder p.srEntry

/-- The default of `GLYPH` (R101). Rows 0, 1 and F are the source's; PRESUMED rows 2 to E are the spec's general
knowledge, not in its source (R101, D25; log 7). -/
def defaultGlyph : Vector Pattern 16 :=
  #v[0x7E#7, 0x30#7, 0x6D#7, 0x79#7, 0x33#7, 0x5B#7, 0x5F#7, 0x70#7,
     0x7F#7, 0x7B#7, 0x77#7, 0x1F#7, 0x4E#7, 0x3D#7, 0x4F#7, 0x47#7]

/-- Every parameter at its default (R6). -/
def Params.default : Params where
  emitOrder := .idx0First
  srEntry := .q0
  segWire := glyphCorrectWire .idx0First .q0
  rightPolicy := .defer
  glyph := defaultGlyph
  frameDelayMicros := 62500

/-- The fixed microprogram, address 0x0 first: the words of addresses 0x0 to 0xE (R192). -/
def microprogram : List Byte :=
  [0x10#8, 0x20#8, 0x30#8, 0x31#8, 0x32#8, 0x33#8, 0x34#8, 0x35#8, 0x36#8,
   0x40#8, 0x50#8, 0x60#8, 0x70#8, 0x80#8, 0x90#8]

/-- What an address of UROM that no cell lists reads as: the microprogram's word at 0x0 to 0xE, and no word at 0xF
or beyond (R53, R192). -/
def uromBlank (a : Nat) : Option Byte := microprogram[a]?

end Sys2Proof
end

