-- ==== Sys2Proof/Machine/State.lean ====
section
/-! DEFINITION. The state of the machine as plain data: every register, flag, pin and external vector of 10_state.md,
the input rst_n, the UROM address space, the parameters, and the script of turns; the state right after reset
(70_reset_and_hazards.md R251); and the reasons a step can stop. -/

namespace Sys2Proof.Machine

/-- The block's one-bit output pins (R29). -/
inductive Pin where
  /-- `SER`, the data line. -/
  | ser
  /-- `SRCLK`, the shift clock. -/
  | srclk
  /-- `RCLK`, the latch clock. -/
  | rclk
  /-- `SRCLR_n`, the active-low clear. -/
  | srclrN
  deriving DecidableEq, Repr, Inhabited

/-- An event of the pin trace: one output and the level it was driven to (R12, R32). -/
inductive PinEvent where
  /-- `PinWrite(pin, level)`. -/
  | line (pin : Pin) (level : Level)
  /-- `PinWriteDig(mask4)`: the four digit-enable lines in one event. -/
  | dig (mask : Nibble)
  deriving DecidableEq, Repr

/-- Why the machine stops. It does not happen under the fixed microprogram (R193). -/
inductive Fault where
  /-- Raised by a SCAN turn at `upc` = 0xF, the address that "holds no micro-op and is never fetched" (R53;
  DESIGN CHOICE, log 9). Safe. -/
  | noMicroOp
  deriving DecidableEq, Repr

/-- Why the model gives an input no meaning. -/
inductive Refusal where
  /-- Raised by `exec` for an instruction that has no meaning yet. Safe. -/
  | notModelled (mnemonic : String)
  /-- `Refuse(InvalidWord)`: raised by a SCAN turn that fetched a word R74 calls invalid. Safe. -/
  | invalidWord (word : Byte)
  /-- `Refuse(NotScanOp)`: raised by a SCAN turn that fetched an NTF word (R75). Safe. -/
  | notScanOp
  deriving DecidableEq, Repr

/-- Everything the machine holds between two steps. -/
structure State where
  /-- The microprogram counter (R21). -/
  upc : Nibble
  /-- The frame value (R22). -/
  val : Nibble
  /-- The pattern register (R23). -/
  pat : Pattern
  /-- Whether `pat` has been written; false is the spec's mark "unwritten" (R12, R13, R23). -/
  patWritten : Bool
  /-- The selector position; p denotes Digit(p+1) (R25). -/
  pos : BitVec 2
  /-- "left taken" (R27). -/
  lt : Level
  /-- `flag_L`: true is Pending, false is Idle (R28). -/
  flagL : Level
  /-- `flag_R` (R28). -/
  flagR : Level
  /-- Pin `SER` (R29). -/
  ser : Level
  /-- Pin `SRCLK` (R29). -/
  srclk : Level
  /-- Pin `RCLK` (R29). -/
  rclk : Level
  /-- Pin `SRCLR_n` (R29). -/
  srclrN : Level
  /-- Pins `DIG[3:0]` (R29). -/
  dig : Nibble
  /-- Input pin `rst_n` (R30, R250). -/
  rstN : Level
  /-- The SIPO's shift stages `SR.S[7:0]` (R31). -/
  srS : Byte
  /-- The SIPO's latched outputs `SR.Q[7:0]` (R31). -/
  srQ : Byte
  /-- The pin trace since reset, oldest event first (R32). -/
  trace : List PinEvent
  /-- The UROM address space (R53): the cells that differ from the microprogram, addresses rising. Nothing writes
  it (R63), so it lists nothing on any run from reset (DESIGN CHOICE, log 8). -/
  urom : List Host.Cell
  /-- The parameters (R6; DESIGN CHOICE to hold them here, log 6). -/
  params : Params
  /-- The model's own: the turns still scripted, next one first (DESIGN CHOICE, log 3). -/
  sched : List Turn
  /-- The model's own: how many free turns have been drawn (DESIGN CHOICE, log 3). -/
  tick : Nat
  deriving DecidableEq, Repr

/-- The reset state of R251, `rst_n` just released, with the SIPO holding any given vectors: R251 leaves them
unspecified until SRST. -/
def State.resetWith (s q : Byte) : State where
  upc := 0x0#4
  val := 0x0#4
  pat := 0x0#7
  patWritten := false
  pos := 0#2
  lt := false
  flagL := false
  flagR := false
  ser := false
  srclk := false
  rclk := false
  srclrN := true
  dig := 0x0#4
  rstN := true
  srS := s
  srQ := q
  trace := []
  urom := []
  params := Params.default
  sched := []
  tick := 0

/-- The machine right after reset. DESIGN CHOICE: the SIPO's vectors, which the spec leaves at any value, are 0x00
(log 2); `pat`, unwritten, is 0 (log 1). -/
def State.reset : State := State.resetWith 0x00#8 0x00#8

end Sys2Proof.Machine
end

