-- ==== Sys2Proof/Machine/Ops.lean ====
section
/-! DEFINITION. The named operations of the machine: reading and (for a loader only) writing UROM, reading LUT, the
register writes, the pins with the SIPO's reactions, interrupt entry, and the reset input. They are the pseudocode
primitives of 00_scope.md R12. -/

namespace Sys2Proof.Machine

/-! ### UROM (20_memory.md R53) -/

/-- The byte a list of cells gives an address, if it lists one. -/
def Memory.lookup : List Host.Cell → Nat → Option Byte
  | [], _ => none
  | (k, b) :: m, a => if k = a then some b else Memory.lookup m a

/-- `MemRead(UROM, a, 8)` (R12): the word at an address, and none where there is no micro-op (R53). -/
def Memory.read (m : List Host.Cell) (a : Nat) : Option Byte :=
  (uromBlank a).map fun blank => (Memory.lookup m a).getD blank

/-- The cells without the one at an address. -/
def Memory.erase : List Host.Cell → Nat → List Host.Cell
  | [], _ => []
  | (k, b) :: m, a => if k = a then m else (k, b) :: Memory.erase m a

/-- The cells with one set, in rising order of addresses. -/
def Memory.insert : List Host.Cell → Nat → Byte → List Host.Cell
  | [], a, b => [(a, b)]
  | (k, c) :: m, a, b =>
    if a < k then (a, b) :: (k, c) :: m
    else if a = k then (a, b) :: m
    else (k, c) :: Memory.insert m a b

/-- Set the word at an address, keeping the canonical form; an address without a micro-op is left alone. No step does
this (R63): it is how `State.withFetchWord` places a word. -/
def Memory.write (m : List Host.Cell) (a : Nat) (b : Byte) : List Host.Cell :=
  match uromBlank a with
  | none => m
  | some blank => if b = blank then Memory.erase m a else Memory.insert m a b

/-- Addresses strictly rise, from above a bound. -/
def Memory.risingFrom : Nat → List Host.Cell → Bool
  | _, [] => true
  | lo, (k, _) :: m => lo ≤ k && Memory.risingFrom (k + 1) m

/-- The canonical form: addresses strictly rising, each one an address of UROM, and no cell equal to what its address
reads as unlisted. -/
def Memory.wf (m : List Host.Cell) : Bool :=
  Memory.risingFrom 0 m && m.all fun c => match uromBlank c.1 with
    | none => false
    | some blank => c.2 != blank

/-- `MemRead(UROM, upc, 8)`: the word SCAN fetches (R191). -/
def State.fetch (s : State) : Option Byte := Memory.read s.urom s.upc.toNat

/-- `LUT[v]` = `encode(v)`: the entry of the segment ROM (R51, R100). Every 4-bit address is valid (R52). -/
def State.lut (s : State) (v : Nibble) : Pattern := s.params.glyph.get v.toFin

/-! ### Registers (R12 `r` and `r <- v`) -/

/-- `upc <- t`. -/
def State.setUpc (s : State) (t : Nibble) : State := { s with upc := t }

/-- `upc <- upc + 1`, at upc's width: how a micro-op ends (R193). -/
def State.advance (s : State) : State := s.setUpc (s.upc + 1#4)

/-- `val <- v`. -/
def State.setVal (s : State) (v : Nibble) : State := { s with val := v }

/-- `pat <- v`, after which `pat` is written (R13). -/
def State.setPat (s : State) (v : Pattern) : State := { s with pat := v, patWritten := true }

/-- Read `pat` (R12). DESIGN CHOICE: before the first write it reads as its value at reset, which log 1 names; that such
a read is the spec's "model fault" (R13) is said by `State.readsUnwritten`, and the machine goes on. -/
def State.readPat (s : State) : Pattern := s.pat

/-- `pos <- v`. -/
def State.setPos (s : State) (v : BitVec 2) : State := { s with pos := v }

/-- `lt <- v`. -/
def State.setLt (s : State) (v : Level) : State := { s with lt := v }

/-- Read `flag_w` (R28). -/
def State.flag (s : State) : Button → Level
  | .left => s.flagL
  | .right => s.flagR

/-- `flag_w <- v` (R28). -/
def State.setFlag (s : State) (w : Button) (v : Level) : State :=
  match w with
  | .left => { s with flagL := v }
  | .right => { s with flagR := v }

/-! ### The attached SIPO (41_shift_register_serializer.md R127 to R130) -/

/-- The shift stages after one shift (R127). -/
def shiftIn (entry : SrEntry) (stages : Byte) (bit : Level) : Byte :=
  match entry with
  | .q0 => stages.extractLsb' 0 7 ++ BitVec.ofBool bit
  | .q7 => BitVec.ofBool bit ++ stages.extractLsb' 1 7

/-- Replace the SIPO's two vectors. -/
def State.setSipo (s : State) (stages outputs : Byte) : State := { s with srS := stages, srQ := outputs }

/-- The SIPO's reaction to `pin` being driven to `level`, in the state before the pin changes: a rising edge of `SRCLK`
with `SRCLR_n` = 1 shifts (R127), a rising edge of `RCLK` copies stages to outputs (R129), and driving `SRCLR_n` to 0
clears both (R130; log 10, log 11). Everything else has no effect. -/
def State.sipoReact (s : State) (pin : Pin) (level : Level) : State :=
  match pin with
  | .ser => s
  | .srclk =>
    if level && !s.srclk && s.srclrN then s.setSipo (shiftIn s.params.srEntry s.srS s.ser) s.srQ else s
  | .rclk => if level && !s.rclk then s.setSipo s.srS s.srS else s
  | .srclrN => if level then s else s.setSipo 0x00#8 0x00#8

/-! ### Pins (R12 `PinWrite`, `PinWriteDig`) -/

/-- The present level of an output pin. -/
def State.level (s : State) : Pin → Level
  | .ser => s.ser
  | .srclk => s.srclk
  | .rclk => s.rclk
  | .srclrN => s.srclrN

/-- Set the level an output pin holds. -/
def State.setLevel (s : State) (pin : Pin) (level : Level) : State :=
  match pin with
  | .ser => { s with ser := level }
  | .srclk => { s with srclk := level }
  | .rclk => { s with rclk := level }
  | .srclrN => { s with srclrN := level }

/-- Append an event to the pin trace (R32). -/
def State.emit (s : State) (e : PinEvent) : State := { s with trace := s.trace ++ [e] }

/-- `PinWrite(pin, level)`: the SIPO reacts, the pin takes the level, and the event joins the trace (R12). -/
def State.pinWrite (s : State) (pin : Pin) (level : Level) : State :=
  ((s.sipoReact pin level).setLevel pin level).emit (.line pin level)

/-- Set the level of the four digit-enable lines. -/
def State.setDig (s : State) (mask : Nibble) : State := { s with dig := mask }

/-- `PinWriteDig(mask4)`: all four lines in one event (R12, R153). -/
def State.pinWriteDig (s : State) (mask : Nibble) : State := (s.setDig mask).emit (.dig mask)

/-! ### Digit selector (42_digit_selector_mux.md R150 to R152) -/

/-- `onehot4(p)` = `1 << p` (R12). -/
def onehot4 (p : BitVec 2) : Nibble := 0x1#4 <<< p.toNat

/-- `shift_left()`: `pos <- (pos + 3) mod 4` (R150). -/
def State.shiftLeft (s : State) : State := s.setPos (s.pos + 3#2)

/-- `shift_right()`: `pos <- (pos + 1) mod 4` (R151). -/
def State.shiftRight (s : State) : State := s.setPos (s.pos + 1#2)

/-- `current()`: the DigitMask (R152, R26). -/
def State.current (s : State) : Nibble := onehot4 s.pos

/-! ### Delay (60_exceptions.md R230) -/

/-- `Wait(FRAME_DELAY)`: one step, no time in the model, nothing changes (R12, R201; log 13). -/
def State.wait (s : State) (_micros : Nat) : State := s

/-! ### Interrupt entry (60_exceptions.md R226)

The block raises no exception (R220) and saves nothing, switches nothing and jumps nowhere on an interrupt; there is no
return operation (R227). Entry is the whole of it. -/

/-- `notify(w)`: `flag_w <- 1` (R171, R226). -/
def State.notify (s : State) (w : Button) : State := s.setFlag w true

/-! ### The reset input (70_reset_and_hazards.md R250, R254) -/

/-- `rst_n` driven to 0: the block returns to the state of R251 and the SIPO keeps its state (R254). ROM, parameters
and script are no part of the block's state (R20; log 5). -/
def State.assertReset (s : State) : State :=
  { State.resetWith s.srS s.srQ with
    rstN := false, urom := s.urom, params := s.params, sched := s.sched, tick := s.tick }

/-- `rst_n` driven to 1: if it was 0, the block starts from the state of R251 (R250); if it was 1, nothing happens. -/
def State.releaseReset (s : State) : State := if s.rstN then s else { s.assertReset with rstN := true }

end Sys2Proof.Machine
end

