-- ==== Sys2Proof/Machine/Flags.lean ====
section
/-! DEFINITION. The edge flags and `lt`, the block's only flag-like state (10_state.md R35): the atomic take
(43_button_edge_detector.md R174) and the two polls' use of it (R175, R176). -/

namespace Sys2Proof.Machine

/-- `TakeClear(w)`: `t <- flag_w ; flag_w <- 0 ; return t`, one atomic operation (R174, R60). -/
def State.takeClear (s : State) (w : Button) : Level × State := (s.flag w, s.setFlag w false)

/-- The poll of the left flag: `lt <- TakeClear(L)`, and `shift_left()` if it was taken (R175). -/
def State.pollLeft (s : State) : State :=
  let (t, s) := s.takeClear .left
  let s := s.setLt t
  if t then s.shiftLeft else s

/-- The poll of the right flag: `t <- TakeClear(R)`, and `shift_right()` if it was taken and left was not (R176). -/
def State.pollRight (s : State) : State :=
  let (t, s) := s.takeClear .right
  if t && !s.lt then s.shiftRight else s

/-- Where PLL goes: past PLR to address 0xB when left was taken under `DEFER`, else to the next address (R175, R194). -/
def State.afterPollLeft (s : State) : State :=
  if s.lt && s.params.rightPolicy = .defer then s.setUpc 0xB#4 else s.advance

end Sys2Proof.Machine
end

