-- ==== Sys2Proof/Machine/ButtonLatch.lean ====
section
/-! DEFINITION. button_edge_detector_debouncer: the events NTF L and NTF R and the micro-ops PLL and PLR
(43_button_edge_detector.md). -/

namespace Sys2Proof.Machine

/-- NTF L: `flag_L <- 1`, and nothing else (R171, R226). -/
def execNtfL (s : State) : Host.Outcome State Fault Refusal := .next (s.notify .left)

/-- NTF R: `flag_R <- 1`, and nothing else (R171, R226). -/
def execNtfR (s : State) : Host.Outcome State Fault Refusal := .next (s.notify .right)

/-- PLL: poll the left flag, then the sequencing of R194 (R175). -/
def execPll (s : State) : Host.Outcome State Fault Refusal := .next s.pollLeft.afterPollLeft

/-- PLR: poll the right flag (R176). -/
def execPlr (s : State) : Host.Outcome State Fault Refusal := .next s.pollRight.advance

end Sys2Proof.Machine
end

