-- ==== Sys2Proof/Machine/ScanFsm.lean ====
section
/-! DEFINITION. display_scan_fsm: the micro-ops DLY and INC (44_display_scan_fsm.md). -/

namespace Sys2Proof.Machine

/-- DLY: `Wait(FRAME_DELAY)` (R201). -/
def execDly (s : State) : Host.Outcome State Fault Refusal := .next (s.wait s.params.frameDelayMicros).advance

/-- INC: `val <- (val + 1) mod 16`, then back to the start of the frame (R202). -/
def execInc (s : State) : Host.Outcome State Fault Refusal := .next ((s.setVal (s.val + 1#4)).setUpc 0x1#4)

end Sys2Proof.Machine
end

