-- ==== Sys2Proof/Machine/SegmentEncoder.lean ====
section
/-! DEFINITION. segment_lut_encoder: the micro-op ENC (40_segment_lut_encoder.md). -/

namespace Sys2Proof.Machine

/-- ENC: `pat <- LUT[val]` (R103). -/
def execEnc (s : State) : Host.Outcome State Fault Refusal := .next (s.setPat (s.lut s.val)).advance

end Sys2Proof.Machine
end

