-- ==== Sys2Proof/Machine/Selector.lean ====
section
/-! DEFINITION. digit_selector_mux: the micro-op DRV (42_digit_selector_mux.md). -/

namespace Sys2Proof.Machine

/-- DRV: `PinWriteDig(current())` (R153). -/
def execDrv (s : State) : Host.Outcome State Fault Refusal := .next (s.pinWriteDig s.current).advance

end Sys2Proof.Machine
end

