-- ==== Sys2Proof/Machine/Operands.lean ====
section
/-! DEFINITION. The two operand forms (30_encoding.md R73) as the meanings use them: the pattern bit a shift slot sends
(41_shift_register_serializer.md R123), and the button of an NTF; and the verdict on a read of an unwritten register. -/

namespace Sys2Proof.Machine

/-- `b(i)`: the pattern bit that shift slot `i` sends (R123). -/
def emitBit (order : EmitOrder) (i : Nat) : Nat :=
  match order with
  | .idx0First => i
  | .idx6First => 6 - i

/-- `SER` carries the complement of the pattern bit (R122). -/
def slotLevel (order : EmitOrder) (pattern : Pattern) (i : Nat) : Level := !pattern.getLsbD (emitBit order i)

/-- The instruction would read `pat`, as SHB does, while `pat` is marked unwritten: the read that R13 calls a model fault
and that R196 shows the fixed microprogram never does. It is a verdict beside the step, and stops nothing (log 1). -/
def State.readsUnwritten (s : State) (i : Instr) : Bool := i.slot.isSome && !s.patWritten

/-- The NTF event of a button (R73): `w` = 0 is L, `w` = 1 is R. -/
def notifyOf : Button → Instr
  | .left => .ntfL
  | .right => .ntfR

end Sys2Proof.Machine
end

