-- ==== Sys2Proof/Machine/Serializer.lean ====
section
/-! DEFINITION. shift_register_serializer: the micro-ops SRST, SHB 0 to SHB 6 and LAT (41_shift_register_serializer.md). -/

namespace Sys2Proof.Machine

/-- SRST: pulse `SRCLR_n` low (R126). -/
def execSrst (s : State) : Host.Outcome State Fault Refusal :=
  .next ((s.pinWrite .srclrN false).pinWrite .srclrN true).advance

/-- One bit into the SIPO: data first, then a pulse of `SRCLK` (R124, R257). -/
def State.shiftBit (s : State) (d : Level) : State :=
  ((s.pinWrite .ser d).pinWrite .srclk true).pinWrite .srclk false

/-- SHB in slot `i`: send the complement of pattern bit `b(i)` (R124). It runs also where `pat` is unwritten, on the
value `pat` holds (log 1). -/
def shiftSlot (i : Nat) (s : State) : Host.Outcome State Fault Refusal :=
  .next (s.shiftBit (slotLevel s.params.emitOrder s.readPat i)).advance

/-- SHB 0 (R124). -/
def execShb0 (s : State) : Host.Outcome State Fault Refusal := shiftSlot 0 s

/-- SHB 1 (R124). -/
def execShb1 (s : State) : Host.Outcome State Fault Refusal := shiftSlot 1 s

/-- SHB 2 (R124). -/
def execShb2 (s : State) : Host.Outcome State Fault Refusal := shiftSlot 2 s

/-- SHB 3 (R124). -/
def execShb3 (s : State) : Host.Outcome State Fault Refusal := shiftSlot 3 s

/-- SHB 4 (R124). -/
def execShb4 (s : State) : Host.Outcome State Fault Refusal := shiftSlot 4 s

/-- SHB 5 (R124). -/
def execShb5 (s : State) : Host.Outcome State Fault Refusal := shiftSlot 5 s

/-- SHB 6 (R124). -/
def execShb6 (s : State) : Host.Outcome State Fault Refusal := shiftSlot 6 s

/-- The pulse of `RCLK` (R125). -/
def State.latchPulse (s : State) : State := (s.pinWrite .rclk true).pinWrite .rclk false

/-- LAT: pulse `RCLK` (R125). -/
def execLat (s : State) : Host.Outcome State Fault Refusal := .next s.latchPulse.advance

end Sys2Proof.Machine
end

