-- ==== Sys2Proof/Machine/Dispatch.lean ====
section
/-! DEFINITION. The meaning of each micro-operation (30_encoding.md R72, column rule): one arm per constructor. -/

namespace Sys2Proof.Machine

def exec (i : Instr) (s : State) : Host.Outcome State Fault Refusal :=
  match i with
  | .srst => Sys2Proof.Machine.execSrst s
  | .enc => Sys2Proof.Machine.execEnc s
  | .shb0 => Sys2Proof.Machine.execShb0 s
  | .shb1 => Sys2Proof.Machine.execShb1 s
  | .shb2 => Sys2Proof.Machine.execShb2 s
  | .shb3 => Sys2Proof.Machine.execShb3 s
  | .shb4 => Sys2Proof.Machine.execShb4 s
  | .shb5 => Sys2Proof.Machine.execShb5 s
  | .shb6 => Sys2Proof.Machine.execShb6 s
  | .pll => Sys2Proof.Machine.execPll s
  | .plr => Sys2Proof.Machine.execPlr s
  | .drv => Sys2Proof.Machine.execDrv s
  | .lat => Sys2Proof.Machine.execLat s
  | .dly => Sys2Proof.Machine.execDly s
  | .inc => Sys2Proof.Machine.execInc s
  | .ntfL => Sys2Proof.Machine.execNtfL s
  | .ntfR => Sys2Proof.Machine.execNtfR s

end Sys2Proof.Machine
end

