-- ==== Sys2Proof/Machine/Agents.lean ====
section
/-! DEFINITION. The turns of the agents (00_scope.md R9): SCAN's step (44_display_scan_fsm.md R191), the edge agents'
events (43_button_edge_detector.md R171), the reset input (70_reset_and_hazards.md R250), and whose turn is next. -/

namespace Sys2Proof.Machine

/-- SCAN executes the word it fetched: an invalid word and an NTF word are refused (R74, R75, R191). -/
def runWord (w : Byte) (s : State) : Host.Outcome State Fault Refusal :=
  match decodeWord w with
  | .ok i => if i.isNotify then .refused .notScanOp else exec i s
  | .error _ => .refused (.invalidWord w)

/-- One turn of SCAN: while `rst_n` = 1 it fetches at `upc` and executes (R191); while `rst_n` = 0 it has no step, so
the turn changes nothing (R250; log 4). -/
def scanTurn (s : State) : Host.Outcome State Fault Refusal :=
  if s.rstN then
    match s.fetch with
    | some w => runWord w s
    | none => .fault .noMicroOp
  else .next s

/-- SCAN's next micro-op would read `pat` while it is unwritten (R13, R196; log 1). -/
def State.scanReadsUnwritten (s : State) : Bool :=
  s.rstN && match s.fetch with
    | some w => (match decodeWord w with
      | .ok i => s.readsUnwritten i
      | .error _ => false)
    | none => false

/-- One turn of an edge agent: its NTF while `rst_n` = 1 (R171); while `rst_n` = 0 the edge is not remembered (R181). -/
def edgeTurn (w : Button) (s : State) : Host.Outcome State Fault Refusal :=
  if s.rstN then exec (notifyOf w) s else .next s

/-- One turn of whoever's it is (R9, R59). -/
def takeTurn (t : Turn) (s : State) : Host.Outcome State Fault Refusal :=
  match t with
  | .scan => scanTurn s
  | .edgeL => edgeTurn .left s
  | .edgeR => edgeTurn .right s
  | .resetLow => .next s.assertReset
  | .resetHigh => .next s.releaseReset

/-- Whose turn is next, and the state with that turn used up: the script's head, or a free turn where nothing is
scripted (R9, D27; log 3). -/
def State.nextTurn (s : State) : Turn × State :=
  match s.sched with
  | t :: rest => (t, { s with sched := rest })
  | [] => (Config.freeTurn s.tick, { s with tick := s.tick + 1 })

/-- The state whose very next turn is SCAN's, on the word `w`: the word stands in UROM at `upc` and `rst_n` is 1. Where
`upc` is 0xF, which holds no micro-op (R53), the word stands at 0x0 and `upc` is 0x0 (log 8). -/
def State.placeScan (s : State) (w : Byte) : State :=
  let a : Nibble := if s.upc = 0xF#4 then 0x0#4 else s.upc
  { s with rstN := true, upc := a, urom := Memory.write s.urom a.toNat w, sched := .scan :: s.sched }

/-- The state whose very next turn is an edge agent's (R75: an NTF is never fetched). -/
def State.placeEdge (s : State) (t : Turn) : State := { s with rstN := true, sched := t :: s.sched }

/-- Place one micro-op word so that the very next step runs it: an NTF as its edge agent's turn, every other word as
SCAN's (R75; log 8). -/
def State.placeWord (s : State) (w : Byte) : State :=
  match decodeWord w with
  | .ok .ntfL => s.placeEdge .edgeL
  | .ok .ntfR => s.placeEdge .edgeR
  | _ => s.placeScan w

end Sys2Proof.Machine
end

