-- ==== Sys2Proof/Machine/Assembler.lean ====
section
/-! DEFINITION. The assembly syntax of 30_encoding.md R77, one micro-op a line, on lists of characters; and the
expansions of the pseudo-operations (R78). -/

namespace Sys2Proof

/-- What each pseudo-operation expands to (R78). Under `DEFER` the PLR of POLL is skipped when `lt` = 1, which is PLL's
own sequencing (R194). -/
def Pseudo.expand : Pseudo → List Instr
  | .xmit => [.shb0, .shb1, .shb2, .shb3, .shb4, .shb5, .shb6]
  | .poll => [.pll, .plr]
  | .frame => [.enc, .shb0, .shb1, .shb2, .shb3, .shb4, .shb5, .shb6, .pll, .plr, .drv, .lat, .dly, .inc]

/-- The text of a micro-op: its mnemonic and its operand, if it has one (R77). -/
def Instr.text : Instr → List Char
  | .srst => ['S', 'R', 'S', 'T']
  | .enc => ['E', 'N', 'C']
  | .shb0 => ['S', 'H', 'B', ' ', '0']
  | .shb1 => ['S', 'H', 'B', ' ', '1']
  | .shb2 => ['S', 'H', 'B', ' ', '2']
  | .shb3 => ['S', 'H', 'B', ' ', '3']
  | .shb4 => ['S', 'H', 'B', ' ', '4']
  | .shb5 => ['S', 'H', 'B', ' ', '5']
  | .shb6 => ['S', 'H', 'B', ' ', '6']
  | .pll => ['P', 'L', 'L']
  | .plr => ['P', 'L', 'R']
  | .drv => ['D', 'R', 'V']
  | .lat => ['L', 'A', 'T']
  | .dly => ['D', 'L', 'Y']
  | .inc => ['I', 'N', 'C']
  | .ntfL => ['N', 'T', 'F', ' ', 'L']
  | .ntfR => ['N', 'T', 'F', ' ', 'R']

/-- A line of a listing: an optional UROM address and a micro-op (R77). -/
structure AsmLine where
  label : Option Nibble
  instr : Instr
  deriving DecidableEq, Repr

/-- The characters before a comment, which starts with `;` (R77). -/
def asmCode : List Char → List Char
  | [] => []
  | c :: rest => if c = ';' then [] else c :: asmCode rest

/-- The words of a line, split at spaces; `word` is the word being read. -/
def asmWords (word : List Char) : List Char → List (List Char)
  | [] => if word = [] then [] else [word]
  | c :: rest =>
    if c = ' ' then (if word = [] then asmWords [] rest else word :: asmWords [] rest)
    else asmWords (word ++ [c]) rest

/-- A UROM address in hex, 0 to E (R77; DESIGN CHOICE: capital letters, log 18). -/
def asmAddress : Char → Option Nibble
  | '0' => some 0x0#4
  | '1' => some 0x1#4
  | '2' => some 0x2#4
  | '3' => some 0x3#4
  | '4' => some 0x4#4
  | '5' => some 0x5#4
  | '6' => some 0x6#4
  | '7' => some 0x7#4
  | '8' => some 0x8#4
  | '9' => some 0x9#4
  | 'A' => some 0xA#4
  | 'B' => some 0xB#4
  | 'C' => some 0xC#4
  | 'D' => some 0xD#4
  | 'E' => some 0xE#4
  | _ => none

/-- The micro-op that words spell: a mnemonic and, for SHB and NTF, one operand (R77). -/
def asmInstr : List (List Char) → Option Instr
  | [['S', 'R', 'S', 'T']] => some .srst
  | [['E', 'N', 'C']] => some .enc
  | [['S', 'H', 'B'], ['0']] => some .shb0
  | [['S', 'H', 'B'], ['1']] => some .shb1
  | [['S', 'H', 'B'], ['2']] => some .shb2
  | [['S', 'H', 'B'], ['3']] => some .shb3
  | [['S', 'H', 'B'], ['4']] => some .shb4
  | [['S', 'H', 'B'], ['5']] => some .shb5
  | [['S', 'H', 'B'], ['6']] => some .shb6
  | [['P', 'L', 'L']] => some .pll
  | [['P', 'L', 'R']] => some .plr
  | [['D', 'R', 'V']] => some .drv
  | [['L', 'A', 'T']] => some .lat
  | [['D', 'L', 'Y']] => some .dly
  | [['I', 'N', 'C']] => some .inc
  | [['N', 'T', 'F'], ['L']] => some .ntfL
  | [['N', 'T', 'F'], ['R']] => some .ntfR
  | _ => none

/-- A line of assembly: an optional label `@N`, a micro-op, an optional comment (R77). Anything else is no line. -/
def asmLine (line : List Char) : Option AsmLine :=
  match asmWords [] (asmCode line) with
  | ['@', n] :: rest =>
    match asmAddress n, asmInstr rest with
    | some a, some i => some ⟨some a, i⟩
    | _, _ => none
  | ws => (asmInstr ws).map fun i => ⟨none, i⟩

end Sys2Proof
end

