-- ==== Sys2Proof/Machine/Display.lean ====
section
/-! DEFINITION. What the display shows (41_shift_register_serializer.md R132): a function of the pins `DIG` and the
SIPO's outputs. -/

namespace Sys2Proof.Machine

/-- Segment `x` of Digit(p+1) is lit exactly when `DIG[p]` = 1 and `SR.Q[SEG_WIRE(x)]` = 0 (R132). -/
def State.lit (s : State) (p : BitVec 2) (x : Segment) : Bool :=
  s.dig.getLsbD p.toNat && !s.srQ.getLsbD (s.params.segWire.index x).toNat

/-- Segment `x` is ON in a pattern (R24). -/
def Pattern.on (pattern : Pattern) (x : Segment) : Bool := pattern.getLsbD x.bit

/-- The SIPO output that receives no new bit in a frame (R131, R133): Q7 with Q0 entry, Q0 with Q7 entry. -/
def carriedIndex : SrEntry → Nat
  | .q0 => 7
  | .q7 => 0

/-- The stage at which `SER` enters, which is where the bit sent last stands (R127, R133). -/
def entryIndex : SrEntry → Nat
  | .q0 => 0
  | .q7 => 7

end Sys2Proof.Machine
end

