-- ==== Sys2Proof/Machine/Frame.lean ====
section
/-! DEFINITION. A frame taken as one atomic function, FRAME() of 44_display_scan_fsm.md R197, and how many SCAN steps
it takes. -/

namespace Sys2Proof.Machine

/-- The seven bits of `transmit(pattern)`, slots 0 to 6 in that order (R121). -/
def State.transmit (s : State) (pattern : Pattern) : State :=
  [0, 1, 2, 3, 4, 5, 6].foldl (fun s i => s.shiftBit (slotLevel s.params.emitOrder pattern i)) s

/-- Left was taken and the policy is `DEFER`: this frame has no PLR (R194). -/
def State.skipsRight (s : State) : Bool := s.lt && s.params.rightPolicy = .defer

/-- The poll of R197: left first, then right unless it is skipped. -/
def State.poll (s : State) : State :=
  let s := s.pollLeft
  if s.skipsRight then s else s.pollRight

/-- FRAME() (R197). -/
def State.frame (s : State) : State :=
  let pattern := s.lut s.val
  let s := ((s.setPat pattern).transmit pattern).poll
  let s := (s.pinWriteDig s.current).latchPulse
  let s := s.wait s.params.frameDelayMicros
  s.setVal (s.val + 1#4)

/-- How many SCAN steps a frame has: 14, and 13 where PLR is skipped (R192, R194). -/
def State.frameSteps (s : State) : Nat := if s.flagL && s.params.rightPolicy = .defer then 13 else 14

end Sys2Proof.Machine
end

