-- ==== Sys2Proof/Safety.lean ====
section
/-! DEFINITION. What a safe state is: the invariants of the spec's rules, over every schedule, as predicates of one state
(the machine's own and its pin trace's), and the running of a list of instructions that claims use. -/

namespace Sys2Proof.Machine

/-! ### The machine's invariant -/

/-- How many bits of its pattern the current frame has shifted when `upc` stands here (R192). -/
def bitsShifted (u : Nibble) : Nat := if u.toNat ≤ 1 then 0 else if u.toNat ≤ 8 then u.toNat - 2 else 7

/-- The stage that holds the bit of slot `j` after `n` shifts of a frame (R127; after seven, R133). -/
def stageOf (entry : SrEntry) (n j : Nat) : Nat :=
  match entry with
  | .q0 => n - 1 - j
  | .q7 => 8 - n + j

/-- UROM holds the fixed microprogram (R53, R192). -/
abbrev State.FixedProgram (s : State) : Prop := s.urom = []

/-- `upc` is one of 0x0 to 0xE (R21, R193). -/
abbrev State.UpcLegal (s : State) : Prop := s.upc ≠ 0xF#4

/-- The pins' levels between micro-ops (R137). -/
abbrev State.PinsIdle (s : State) : Prop := s.srclk = false ∧ s.rclk = false ∧ s.srclrN = true

/-- From ENC to the end of the frame, `pat` is the glyph of the frame's value (R103, R196). -/
abbrev State.PatternLoaded (s : State) : Prop := 2 ≤ s.upc.toNat → s.patWritten = true ∧ s.pat = s.lut s.val

/-- Each bit shifted so far stands, complemented, in its stage (R122, R123, R127, R133). -/
abbrev State.BitsInStages (s : State) : Prop :=
  ∀ j : Fin 7, j.val < bitsShifted s.upc →
    s.srS.getLsbD (stageOf s.params.srEntry (bitsShifted s.upc) j.val) = slotLevel s.params.emitOrder s.pat j.val

/-- From SRST on, the stage at which `SER` enters holds the bit sent last, or the 0 that SRST left; before SRST no bit was
sent and `SER` is 0 (R29, R133). -/
abbrev State.LastBitAtEntry (s : State) : Prop :=
  if s.upc = 0x0#4 then s.ser = false else s.srS.getLsbD (entryIndex s.params.srEntry) = s.ser

/-- After LAT the outputs are the stages (R129). -/
abbrev State.Latched (s : State) : Prop := 13 ≤ s.upc.toNat → s.srQ = s.srS

/-- After DRV the lines enable the digit of the present position (R153, R154). -/
abbrev State.DigitDriven (s : State) : Prop := 12 ≤ s.upc.toNat → s.dig = onehot4 s.pos

/-- Under `DEFER`, PLR is reached only when left was not taken (R176, R194). -/
abbrev State.RightOnlyAfterNoLeft (s : State) : Prop :=
  s.upc = 0xA#4 → s.params.rightPolicy = .defer → s.lt = false

/-- While `rst_n` = 0 every register, flag and pin holds its reset value (R250). -/
abbrev State.HeldInReset (s : State) : Prop := s.rstN = false → s = s.assertReset

/-- The machine's invariant. -/
abbrev State.Inv (s : State) : Prop :=
  s.FixedProgram ∧ s.UpcLegal ∧ s.PinsIdle ∧ s.PatternLoaded ∧ s.BitsInStages ∧ s.LastBitAtEntry ∧
  s.Latched ∧ s.DigitDriven ∧ s.RightOnlyAfterNoLeft ∧ s.HeldInReset

/-! ### The pin trace's invariant -/

/-- The level of a pin at reset (R29). -/
def resetLevel : Pin → Level
  | .ser => false
  | .srclk => false
  | .rclk => false
  | .srclrN => true

/-- The level of a pin after a trace, from the level before it. -/
def traceLevel (pin : Pin) : Level → List PinEvent → Level
  | before, [] => before
  | before, .line p level :: rest => traceLevel pin (if p = pin then level else before) rest
  | before, .dig _ :: rest => traceLevel pin before rest

/-- The digit lines after a trace, from their levels before it. -/
def traceDig : Nibble → List PinEvent → Nibble
  | before, [] => before
  | before, .line _ _ :: rest => traceDig before rest
  | _, .dig mask :: rest => traceDig mask rest

/-- How often a pin rises from 0 to 1 in a trace, from its level before it. -/
def risingEdges (pin : Pin) : Level → List PinEvent → Nat
  | _, [] => 0
  | before, .line p level :: rest =>
    if p = pin then (if level && !before then 1 else 0) + risingEdges pin level rest
    else risingEdges pin before rest
  | before, .dig _ :: rest => risingEdges pin before rest

/-- How often a pin has risen since reset. -/
def State.rises (s : State) (pin : Pin) : Nat := risingEdges pin (resetLevel pin) s.trace

/-- An event that drives the digit lines drives exactly one of them to 1 (R152, R153). -/
def PinEvent.oneHot : PinEvent → Bool
  | .line _ _ => true
  | .dig mask => mask = 0x1#4 || mask = 0x2#4 || mask = 0x4#4 || mask = 0x8#4

/-- An event that drives the digit lines. -/
def PinEvent.isDig : PinEvent → Bool
  | .line _ _ => false
  | .dig _ => true

/-- How many events of the current frame stand in the trace when `upc` stands here, up to the frame's latch (R262). -/
def eventsInto (u : Nibble) : Nat :=
  if u.toNat ≤ 8 then 3 * bitsShifted u else if u.toNat ≤ 11 then 21 else if u.toNat = 12 then 22 else 0

/-- Each pin holds the level last written (R29). -/
abbrev State.LevelsTraced (s : State) : Prop :=
  ∀ pin ∈ [Pin.ser, Pin.srclk, Pin.rclk, Pin.srclrN], traceLevel pin (resetLevel pin) s.trace = s.level pin

/-- The digit lines hold the mask last driven, and 0000 before the first (R29, R154). -/
abbrev State.DigTraced (s : State) : Prop := traceDig 0x0#4 s.trace = s.dig

/-- Every mask driven is one-hot (R152, R154). -/
abbrev State.MasksOneHot (s : State) : Prop := ∀ e ∈ s.trace, e.oneHot = true

/-- Seven rising edges of `SRCLK` for each rising edge of `RCLK`, plus those of the frame not latched yet (R135). -/
abbrev State.SevenShiftsPerLatch (s : State) : Prop :=
  s.rises .srclk = 7 * s.rises .rclk + (if 13 ≤ s.upc.toNat then 0 else bitsShifted s.upc)

/-- 24 events for each latched frame and 2 for SRST (R262). -/
abbrev State.EventsCounted (s : State) : Prop :=
  s.trace.length = if s.upc = 0x0#4 then 0 else 2 + 24 * s.rises .rclk + eventsInto s.upc

/-- The frame value counts the latched frames modulo 16 (R195). -/
abbrev State.ValueCountsFrames (s : State) : Prop :=
  (if 13 ≤ s.upc.toNat then s.val + 1#4 else s.val) = BitVec.ofNat 4 (s.rises .rclk)

/-- The pin trace's invariant. -/
abbrev State.TraceInv (s : State) : Prop :=
  s.LevelsTraced ∧ s.DigTraced ∧ s.MasksOneHot ∧ s.SevenShiftsPerLatch ∧ s.EventsCounted ∧ s.ValueCountsFrames

/-- From SRST until the first rise of `RCLK` the SIPO's outputs are the 0x00 that SRST left (R129, R130, R259). -/
abbrev State.BlankBeforeLatch (s : State) : Prop := s.upc ≠ 0x0#4 → s.rises .rclk = 0 → s.srQ = 0x00#8

/-! ### Running instructions -/

/-- The instructions of a list one after the other, stopping where one stops. -/
def execSeq : List Instr → State → Host.Outcome State Fault Refusal
  | [], s => .next s
  | i :: rest, s =>
    match exec i s with
    | .next t => execSeq rest t
    | .fault r => .fault r
    | .refused r => .refused r

/-- A run of scripted turns is safe when it answers a state, neither a fault nor a refusal. -/
def SafeRun (k : Nat) (s : State) : Prop := ∃ t, Sys2Proof.core.run k s = .next t

end Sys2Proof.Machine
end

