-- ==== Sys2Proof/Certificates/Slice0/Obligations.lean ====
section
/-! DEFINITION. The statements for the provers: what the micro-operations, the agents, the reset input, the SIPO and the
display do, from the numbered rules of spec/. -/

open Sys2Proof Sys2Proof.Machine

/-! ### Encoding -/

/-- R71, R76: a word decodes to an instruction exactly when it is that instruction's encoding, whatever follows it; so
decoding an encoded instruction gives it back, and no word has two readings. -/
def Obligations.DecodeInvertsEncode : Prop :=
  ∀ (w : Byte) (rest : List Byte) (i : Instr), decode (w :: rest) = .ok (i, rest) ↔ encode i = w

/-- R74 (the spec's decision D4): the words the decoder rejects, by `op` = word / 16 and `arg` = word mod 16; SCAN
refuses each of them; and the microprogram contains none. -/
def Obligations.RejectsExactlyInvalidWords : Prop :=
  (∀ w : Byte,
    ((∃ e, decodeWord w = .error e) ↔
      let op := w.toNat / 16
      let arg := w.toNat % 16
      op = 0 ∨ 11 ≤ op ∨ (op ≠ 3 ∧ op ≠ 10 ∧ arg ≠ 0) ∨ (op = 3 ∧ 8 ≤ arg) ∨ (op = 10 ∧ 2 ≤ arg) ∨
        (op = 3 ∧ arg = 7)) ∧
    ∀ (s : State) (e : Reject), s.rstN = true → s.fetch = some w → decodeWord w = .error e →
      takeTurn .scan s = .refused (.invalidWord w)) ∧
  ∀ w ∈ microprogram, ∃ i, decodeWord w = .ok i

/-- R72: the 17 valid words and what they stand for. -/
def Obligations.SpecWordsDecode : Prop :=
  ∀ p ∈ [((0x10#8 : Byte), Instr.srst), (0x20#8, .enc), (0x30#8, .shb0), (0x31#8, .shb1), (0x32#8, .shb2),
      (0x33#8, .shb3), (0x34#8, .shb4), (0x35#8, .shb5), (0x36#8, .shb6), (0x40#8, .pll), (0x50#8, .plr),
      (0x60#8, .drv), (0x70#8, .lat), (0x80#8, .dly), (0x90#8, .inc), (0xA0#8, .ntfL), (0xA1#8, .ntfR)],
    decodeWord p.1 = .ok p.2

/-- R53, R192: UROM of the fixed program holds the microprogram, SRST and then one FRAME; address 0xF holds nothing,
whatever the cells. -/
def Obligations.UromHoldsMicroprogram : Prop :=
  (∀ a : Nat, a < 15 →
    (Memory.read [] a).map (fun w => (decodeWord w).toOption) =
      some ((Instr.srst :: Pseudo.expand .frame)[a]?)) ∧
  ∀ m : List Host.Cell, Memory.read m 15 = none

/-- R77: a line of assembly spells its micro-op: without a comment and with one, without a label and with each of the
labels 0 to E, which stand for the addresses they name in hex. A label F, and a mnemonic with an operand it does not
take, spell nothing. Spaces and capitals are the model's choice (log 18). -/
def Obligations.AssemblyLineSpellsInstr : Prop :=
  (∀ i : Instr,
    asmLine i.text = some ⟨none, i⟩ ∧ ∀ comment, asmLine (i.text ++ ';' :: comment) = some ⟨none, i⟩) ∧
  (∀ p ∈ [('0', (0x0#4 : Nibble)), ('1', 0x1#4), ('2', 0x2#4), ('3', 0x3#4), ('4', 0x4#4), ('5', 0x5#4),
      ('6', 0x6#4), ('7', 0x7#4), ('8', 0x8#4), ('9', 0x9#4), ('A', 0xA#4), ('B', 0xB#4), ('C', 0xC#4),
      ('D', 0xD#4), ('E', 0xE#4)],
    ∀ i : Instr,
      asmLine ('@' :: p.1 :: ' ' :: i.text) = some ⟨some p.2, i⟩ ∧
      ∀ comment, asmLine ('@' :: p.1 :: ' ' :: (i.text ++ ';' :: comment)) = some ⟨some p.2, i⟩) ∧
  (∀ i : Instr, asmLine ('@' :: 'F' :: ' ' :: i.text) = none) ∧
  asmLine ['S', 'H', 'B', ' ', '7'] = none ∧ asmLine ['S', 'H', 'B'] = none ∧
  asmLine ['E', 'N', 'C', ' ', '0'] = none ∧ asmLine ['N', 'T', 'F', ' ', '0'] = none

/-! ### Turns and steps -/

/-- R191: when SCAN's turn comes and the word at `upc` decodes to an instruction that is SCAN's, the turn is that
instruction's meaning; and a step whose scripted turn is SCAN's is that turn, with the turn used up. -/
def Obligations.StepRunsDecodedInstr : Prop :=
  ∀ (s : State) (w : Byte) (i : Instr),
    s.rstN = true → s.fetch = some w → decodeWord w = .ok i → i.isNotify = false →
    takeTurn .scan s = exec i s ∧
    ∀ rest, s.sched = .scan :: rest → step s = exec i { s with sched := rest }

/-- R9, R59, and the model's log 3: every step is one turn, the script's next one, or the free one where nothing is
scripted. -/
def Obligations.TurnsComeFromScriptOrFree : Prop :=
  (∀ (s : State) (t : Turn) (rest : List Turn), s.sched = t :: rest →
    step s = takeTurn t { s with sched := rest }) ∧
  ∀ s : State, s.sched = [] → step s = takeTurn (Config.freeTurn s.tick) { s with tick := s.tick + 1 }

/-- R75 (the spec's decision D3): an NTF word fetched by SCAN is refused, which the microprogram never causes, and an
edge agent's turn is its own NTF, so never another operation. -/
def Obligations.NotifyBelongsToEdgeAgents : Prop :=
  (∀ (s : State) (w : Byte) (i : Instr), s.rstN = true → s.fetch = some w → decodeWord w = .ok i →
    i = .ntfL ∨ i = .ntfR → takeTurn .scan s = .refused .notScanOp) ∧
  (∀ s : State, s.rstN = true →
    takeTurn .edgeL s = exec .ntfL s ∧ takeTurn .edgeR s = exec .ntfR s) ∧
  ∀ w ∈ microprogram, ∀ i, decodeWord w = .ok i → i.isNotify = false

/-- R53, and the model's log 9: SCAN at 0xF, where UROM holds no micro-op, faults. -/
def Obligations.ScanAtEmptyAddressFaults : Prop :=
  ∀ s : State, s.rstN = true → s.upc = 0xF#4 → takeTurn .scan s = .fault .noMicroOp

/-- The model's log 8: after `withFetchWord` the very next step runs exactly that instruction, from a state that
differs from the given one at most in `rst_n`, `upc` (only where it was 0xF) and UROM. -/
def Obligations.PlacedWordRunsNext : Prop :=
  ∀ (s : State) (i : Instr), Memory.wf s.urom = true → ∃ s' : State,
    step (s.withFetchWord 8 (encode i).toNat) = exec i s' ∧
    s' = { s with rstN := true, upc := s'.upc, urom := s'.urom } ∧
    (s.upc ≠ 0xF#4 → s'.upc = s.upc)

/-! ### Reset -/

/-- R251: the reset state, with whatever the SIPO holds: the values the spec gives, `pat` unwritten, and both SIPO
vectors 0x00 after SRST. -/
def Obligations.ResetLeavesSpecValues : Prop :=
  ∃ a b : Byte, State.reset = State.resetWith a b ∧
  ∀ (stages outputs : Byte) (s : State), s = State.resetWith stages outputs →
    s.upc = 0x0#4 ∧ s.val = 0x0#4 ∧ s.patWritten = false ∧ s.pos = 0#2 ∧ s.lt = false ∧ s.flagL = false ∧
    s.flagR = false ∧ s.ser = false ∧ s.srclk = false ∧ s.rclk = false ∧ s.srclrN = true ∧ s.dig = 0x0#4 ∧
    s.srS = stages ∧ s.srQ = outputs ∧ s.trace = [] ∧
    ∃ t, exec .srst s = .next t ∧ t.srS = 0x00#8 ∧ t.srQ = 0x00#8

/-- R250 (the spec's decision D2), with the model's log 4 (the turn of an agent that has no step) and log 5 (the reset
input as one turn), both DEDUCED: while `rst_n` = 0 no agent has a step (its turn changes nothing), every register,
flag and pin keeps its reset value, and when `rst_n` becomes 1 SCAN starts at `upc` = 0. -/
def Obligations.ResetHoldsAndReleases : Prop :=
  (∀ s : State, s.rstN = false →
    takeTurn .scan s = .next s ∧ takeTurn .edgeL s = .next s ∧ takeTurn .edgeR s = .next s ∧
    takeTurn .resetHigh s = .next { s.assertReset with rstN := true }) ∧
  (∀ (s t : State) (turn : Turn), s.HeldInReset → takeTurn turn s = .next t → t.HeldInReset) ∧
  ∀ s : State, s.rstN = false → s.HeldInReset →
    s.upc = 0x0#4 ∧ s.val = 0x0#4 ∧ s.patWritten = false ∧ s.pos = 0#2 ∧ s.lt = false ∧ s.flagL = false ∧
    s.flagR = false ∧ s.ser = false ∧ s.srclk = false ∧ s.rclk = false ∧ s.srclrN = true ∧ s.dig = 0x0#4

/-- R181 (the spec's decision D14), with the model's log 4 (DEDUCED: what the turn of an agent that has no step does):
an edge while `rst_n` = 0 is not remembered: its turn changes nothing, and both flags are 0. -/
def Obligations.EdgesInResetNotRemembered : Prop :=
  ∀ s : State, s.rstN = false → s.HeldInReset →
    takeTurn .edgeL s = .next s ∧ takeTurn .edgeR s = .next s ∧ s.flagL = false ∧ s.flagR = false

/-- R254 (the spec's decision D2), with the model's log 5 (DEDUCED: one turn, UROM, parameters and script kept, no
event) and log 1 (`pat`'s value at reset): `rst_n` driven to 0 during a run returns the block to the reset state and
keeps the SIPO's vectors, which are not displayed; driven to 1 again, the block starts at SRST. -/
def Obligations.ResetDuringRunRestarts : Prop :=
  ∀ s : State, ∃ t : State,
    takeTurn .resetLow s = .next t ∧
    t = { State.resetWith s.srS s.srQ with
          rstN := false, urom := s.urom, params := s.params, sched := s.sched, tick := s.tick } ∧
    (∀ p x, t.lit p x = false) ∧
    ∃ u : State, takeTurn .resetHigh t = .next u ∧ u = { t with rstN := true } ∧
      (s.urom = [] → takeTurn .scan u = exec .srst u)

/-- R252, derived by the spec from R192 and R193: the first SCAN step after reset is SRST: it clears the SIPO, sets
`upc` to 1 and leaves `val` and `pos` 0. -/
def Obligations.FirstScanStepIsSrst : Prop :=
  ∀ (stages outputs : Byte) (rest : List Turn), ∃ t : State,
    step { State.resetWith stages outputs with sched := .scan :: rest } = .next t ∧
    exec .srst { State.resetWith stages outputs with sched := rest } = .next t ∧
    t.upc = 0x1#4 ∧ t.srS = 0x00#8 ∧ t.srQ = 0x00#8 ∧ t.val = 0x0#4 ∧ t.pos = 0#2

/-! ### What each micro-operation does: its encoding, its whole next state (so its frame as well), and where it runs -/

/-- R126, R130: SRST clears both SIPO vectors, pulses `SRCLR_n` low, and changes nothing else but the trace and `upc`;
it stands at UROM address 0 only. -/
def Obligations.SrstClearsSipo : Prop :=
  decodeWord 0x10#8 = .ok .srst ∧
  (∀ s : State, exec .srst s = .next { s with
    srS := 0x00#8, srQ := 0x00#8, srclrN := true,
    trace := s.trace ++ [.line .srclrN false, .line .srclrN true], upc := s.upc + 1#4 }) ∧
  ∀ a w, Memory.read [] a = some w → decodeWord w = .ok .srst → a = 0

/-- R103: ENC loads `pat` with the LUT entry of `val` and changes nothing else but `upc`; no other micro-op writes
`pat`, and ENC stands at one address of UROM, before the seven SHB. -/
def Obligations.EncLoadsPattern : Prop :=
  decodeWord 0x20#8 = .ok .enc ∧
  (∀ s : State, exec .enc s = .next { s with
    pat := s.params.glyph[s.val.toNat]'(s.val.isLt), patWritten := true, upc := s.upc + 1#4 }) ∧
  (∀ (i : Instr) (s t : State), i ≠ .enc → exec i s = .next t → t.pat = s.pat ∧ t.patWritten = s.patWritten) ∧
  ∀ a w, Memory.read [] a = some w → decodeWord w = .ok .enc → a = 1

/-- R124, with R122, R123 and R127: SHB in slot `k` sends the complement of pattern bit `b(k)` on `SER`, pulses
`SRCLK`, shifts the SIPO on the rising edge, and changes nothing else but the trace and `upc`. It holds in every
state: that SHB runs also where `pat` is unwritten, where R12 and R13 call the read a model fault, is the model's
choice (log 1). Where `SRCLK` is already 1 or `SRCLR_n` is 0 there is no shift; before an SHB of the microprogram, in
a state of the machine's invariant, neither is so, and `pat` is written. -/
def Obligations.ShbShiftsOneBit : Prop :=
  (∀ p ∈ [(0, Instr.shb0), (1, .shb1), (2, .shb2), (3, .shb3), (4, .shb4), (5, .shb5), (6, .shb6)],
    decodeWord (BitVec.ofNat 8 (0x30 + p.1)) = .ok p.2 ∧
    ∀ s : State,
      let b := if s.params.emitOrder = .idx0First then p.1 else 6 - p.1
      let d := !s.pat.getLsbD b
      let shifted : Byte :=
        if s.params.srEntry = .q0 then (s.srS <<< 1) ||| (if d then 0x01#8 else 0x00#8)
        else (s.srS >>> 1) ||| (if d then 0x80#8 else 0x00#8)
      exec p.2 s = .next { s with
        ser := d, srclk := false,
        srS := if s.srclk = false ∧ s.srclrN = true then shifted else s.srS,
        trace := s.trace ++ [.line .ser d, .line .srclk true, .line .srclk false],
        upc := s.upc + 1#4 }) ∧
  ∀ s : State, s.Inv → 2 ≤ s.upc.toNat → s.upc.toNat ≤ 8 →
    s.patWritten = true ∧ s.srclk = false ∧ s.srclrN = true

/-- R13, and R196 which the spec derives: `pat` is marked unwritten at reset, ENC alone marks it written, an
instruction reads it unwritten exactly if it is an SHB and the mark still stands, and from a state of the machine's
invariant no run under any schedule comes to such a read. That the machine goes on at such a read, with the value at
reset, is the model's choice (log 1). -/
def Obligations.PatternWrittenBeforeRead : Prop :=
  State.reset.patWritten = false ∧
  (∀ (i : Instr) (s t : State), exec i s = .next t → t.patWritten = (s.patWritten || decide (i = .enc))) ∧
  (∀ (i : Instr) (s : State), s.readsUnwritten i = true ↔
    s.patWritten = false ∧ i ∈ [.shb0, .shb1, .shb2, .shb3, .shb4, .shb5, .shb6]) ∧
  ∀ (k : Nat) (s t : State), s.Inv → Sys2Proof.core.run k s = .next t → t.scanReadsUnwritten = false

/-- R125, with R129: LAT copies the stages to the outputs (on the rising edge of `RCLK`, so where `RCLK` is already 1
there is no copy), pulses `RCLK`, and changes nothing else but the trace and `upc`; it stands at one address of UROM,
after the seven SHB. -/
def Obligations.LatCopiesStagesToOutputs : Prop :=
  decodeWord 0x70#8 = .ok .lat ∧
  (∀ s : State, exec .lat s = .next { s with
    srQ := if s.rclk = false then s.srS else s.srQ, rclk := false,
    trace := s.trace ++ [.line .rclk true, .line .rclk false], upc := s.upc + 1#4 }) ∧
  ∀ a w, Memory.read [] a = some w → decodeWord w = .ok .lat → a = 12

/-- R153 (the spec's decision D12): DRV drives the digit lines to the one-hot mask of `pos`, in one event, also where
`pos` has not changed, and changes nothing else but `upc`. -/
def Obligations.DrvDrivesDigitLines : Prop :=
  decodeWord 0x60#8 = .ok .drv ∧
  ∀ s : State, exec .drv s = .next { s with
    dig := 1#4 <<< s.pos.toNat, trace := s.trace ++ [.dig (1#4 <<< s.pos.toNat)], upc := s.upc + 1#4 }

/-- R175: PLL takes the left flag into `lt`, clears it, moves the position left if it was set, and goes to 0xB if it
was set under `DEFER`, else to the next address; nothing else changes. -/
def Obligations.PllPollsLeft : Prop :=
  decodeWord 0x40#8 = .ok .pll ∧
  ∀ s : State, exec .pll s = .next { s with
    lt := s.flagL, flagL := false,
    pos := if s.flagL then s.pos + 3#2 else s.pos,
    upc := if s.flagL = true ∧ s.params.rightPolicy = .defer then 0xB#4 else s.upc + 1#4 }

/-- R176 (with the spec's decision D13): PLR takes the right flag, clears it, moves the position right if it was set
and left was not taken, and changes nothing else but `upc`. Under `DEFER`, in a state of the machine's invariant, it
is reached only where left was not taken. -/
def Obligations.PlrPollsRight : Prop :=
  decodeWord 0x50#8 = .ok .plr ∧
  (∀ s : State, exec .plr s = .next { s with
    flagR := false,
    pos := if s.flagR = true ∧ s.lt = false then s.pos + 1#2 else s.pos,
    upc := s.upc + 1#4 }) ∧
  ∀ s : State, s.Inv → s.upc = 0xA#4 → s.params.rightPolicy = .defer → s.lt = false

/-- R201 (the spec's decision D22): DLY is one step that changes nothing but `upc`, so no pin. -/
def Obligations.DlyOnlyAdvances : Prop :=
  decodeWord 0x80#8 = .ok .dly ∧ ∀ s : State, exec .dly s = .next { s with upc := s.upc + 1#4 }

/-- R202 (the spec's decision D18): INC adds 1 to `val` modulo 16, goes to 0x1, and changes nothing else; no other
micro-op writes `val`. -/
def Obligations.IncAdvancesFrameValue : Prop :=
  decodeWord 0x90#8 = .ok .inc ∧
  (∀ s : State, exec .inc s = .next { s with val := BitVec.ofNat 4 ((s.val.toNat + 1) % 16), upc := 0x1#4 }) ∧
  ∀ (i : Instr) (s t : State), i ≠ .inc → exec i s = .next t → t.val = s.val

/-- R171 (the spec's decision D20): NTF w sets its own flag, whatever it was, and changes nothing else: not `upc`, not
the other flag, no pin; it is its edge agent's turn at any step while `rst_n` = 1. -/
def Obligations.NotifySetsOwnFlag : Prop :=
  decodeWord 0xA0#8 = .ok .ntfL ∧ decodeWord 0xA1#8 = .ok .ntfR ∧
  (∀ s : State, exec .ntfL s = .next { s with flagL := true } ∧ exec .ntfR s = .next { s with flagR := true }) ∧
  ∀ s : State, s.rstN = true →
    takeTurn .edgeL s = .next { s with flagL := true } ∧ takeTurn .edgeR s = .next { s with flagR := true }

/-! ### Pins, SIPO, flags and selector -/

/-- R57: writing a pin the level it already has leaves the pin and the SIPO as they are and still appends an event.
The premise holds wherever `SRCLR_n` is 1 (R137); it rules out only a SIPO that is not clear under `SRCLR_n` = 0. -/
def Obligations.SameLevelWriteOnlyTraced : Prop :=
  ∀ (s : State) (pin : Pin), (s.srclrN = false → s.srS = 0x00#8 ∧ s.srQ = 0x00#8) →
    s.pinWrite pin (s.level pin) = { s with trace := s.trace ++ [.line pin (s.level pin)] }

/-- R127 (the spec's decision D7): a rising edge of `SRCLK` with `SRCLR_n` = 1 shifts `SER` in at the entry stage; any
other write of `SRCLK` has no effect on the SIPO. -/
def Obligations.SipoShiftsOnRisingEdge : Prop :=
  ∀ (s : State) (level : Level),
    (s.pinWrite .srclk level).srQ = s.srQ ∧
    (¬(level = true ∧ s.srclk = false ∧ s.srclrN = true) → (s.pinWrite .srclk level).srS = s.srS) ∧
    (level = true → s.srclk = false → s.srclrN = true → ∀ k : Nat, k < 8 →
      (s.pinWrite .srclk level).srS.getLsbD k =
        match s.params.srEntry with
        | .q0 => if k = 0 then s.ser else s.srS.getLsbD (k - 1)
        | .q7 => if k = 7 then s.ser else s.srS.getLsbD (k + 1))

/-- R129, with R130 (the spec's decision D10, log 10): the SIPO's outputs change only on a rising edge of `RCLK`, to
the stages, and when `SRCLR_n` is driven to 0, to 0x00; so, of the micro-ops, only LAT and SRST change them. -/
def Obligations.OutputsChangeOnlyOnLatchOrClear : Prop :=
  (∀ (s : State) (pin : Pin) (level : Level),
    (s.pinWrite pin level).srQ =
      if pin = .rclk ∧ level = true ∧ s.rclk = false then s.srS
      else if pin = .srclrN ∧ level = false then 0x00#8 else s.srQ) ∧
  ∀ (i : Instr) (s t : State), exec i s = .next t → t.srQ ≠ s.srQ → i = .lat ∨ i = .srst

/-- R174, and R177 which the spec derives: TakeClear(w) returns the flag, clears it and touches nothing else; a second
one with no NTF w between returns 0. -/
def Obligations.TakeClearReturnsOnce : Prop :=
  ∀ (s : State) (w : Button),
    (s.takeClear w).1 = s.flag w ∧
    (s.takeClear w).2 = (if w = .left then { s with flagL := false } else { s with flagR := false }) ∧
    ((s.takeClear w).2.takeClear w).1 = false ∧
    ((s.notify w).takeClear w).1 = true

/-- R172: an NTF while its flag is already 1 is lost: it leaves the whole state as it is. -/
def Obligations.SecondPressIsLost : Prop :=
  ∀ s : State,
    (s.flagL = true → exec .ntfL s = .next s) ∧ (s.flagR = true → exec .ntfR s = .next s)

/-- R180: each NTF touches its own flag only, and two simultaneous edges are two NTF steps in either order, with the
same end state, both flags 1. -/
def Obligations.NotifiesCommute : Prop :=
  ∀ s : State,
    execSeq [.ntfL, .ntfR] s = .next { s with flagL := true, flagR := true } ∧
    execSeq [.ntfR, .ntfL] s = .next { s with flagL := true, flagR := true } ∧
    exec .ntfL s = .next { s with flagL := true } ∧ exec .ntfR s = .next { s with flagR := true }

/-- R225: an NTF and a SCAN micro-op that is not the poll of the same flag give the same state in either order. -/
def Obligations.NotifyCommutesWithOtherOps : Prop :=
  ∀ (i : Instr) (w : Button) (s t : State),
    i ≠ (if w = .left then .pll else .plr) → exec i s = .next t →
    execSeq [i, notifyOf w] s = execSeq [notifyOf w, i] s ∧ ∃ u, execSeq [notifyOf w, i] s = .next u

/-- R61, derived by the spec from R59 and R60: NTF L and PLL, or NTF R and PLR, run in either order: NTF first, the
event is taken and the flag ends 0; poll first, the prior value is taken and the flag ends 1. -/
def Obligations.RaceAdmitsBothOrders : Prop :=
  ∀ s : State,
    (∃ t, execSeq [.ntfL, .pll] s = .next t ∧ t.lt = true ∧ t.flagL = false ∧ t.pos = s.pos + 3#2) ∧
    (∃ t, execSeq [.pll, .ntfL] s = .next t ∧ t.lt = s.flagL ∧ t.flagL = true) ∧
    (∃ t, execSeq [.ntfR, .plr] s = .next t ∧ t.flagR = false ∧
      t.pos = (if s.lt then s.pos else s.pos + 1#2)) ∧
    (∃ t, execSeq [.plr, .ntfR] s = .next t ∧ t.flagR = true ∧
      t.pos = (if s.flagR = true ∧ s.lt = false then s.pos + 1#2 else s.pos))

/-- R150, R151: `shift_left` and `shift_right` move the position by 3 and by 1 modulo 4, wrapping, and have no other
effect. -/
def Obligations.SelectorMovesWrap : Prop :=
  ∀ s : State,
    s.shiftLeft = { s with pos := BitVec.ofNat 2 ((s.pos.toNat + 3) % 4) } ∧
    s.shiftRight = { s with pos := BitVec.ofNat 2 ((s.pos.toNat + 1) % 4) }

/-- R155: after any sequence of moves the position is (pos0 + rights - lefts) mod 4 over the integers, and nothing
else has changed. -/
def Obligations.SelectorPositionLaw : Prop :=
  ∀ (moves : List Button) (s t : State),
    t = moves.foldl (fun u m => if m = .left then u.shiftLeft else u.shiftRight) s →
    (t.pos.toNat : Int) =
      ((s.pos.toNat : Int) + (moves.count .right : Int) - (moves.count .left : Int)) % 4 ∧
    t = { s with pos := t.pos }

/-- R26, R152: `current()` has bit p set exactly when p is the position, so exactly one bit. -/
def Obligations.CurrentIsOneHot : Prop :=
  ∀ (s : State) (p : Nat), p < 4 → (s.current.getLsbD p = true ↔ p = s.pos.toNat)

/-- R101, R102: the default glyph table, entry by entry; its entries are distinct, only entry 8 has every segment ON,
and none has no segment ON. Rows 2 to E are PRESUMED (log 7). -/
def Obligations.DefaultGlyphTable : Prop :=
  defaultGlyph.toList.map BitVec.toNat =
    [0x7E, 0x30, 0x6D, 0x79, 0x33, 0x5B, 0x5F, 0x70, 0x7F, 0x7B, 0x77, 0x1F, 0x4E, 0x3D, 0x4F, 0x47] ∧
  defaultGlyph.toList.Nodup ∧
  (∀ v : Nibble, defaultGlyph.get v.toFin = 0x7F#7 ↔ v = 0x8#4) ∧
  (∀ v : Nibble, defaultGlyph.get v.toFin ≠ 0x00#7) ∧
  State.reset.params.glyph = defaultGlyph

/-! ### Whole-machine rules -/

/-- R63: no step writes UROM or LUT: every address of UROM and every entry of LUT reads after a step as before it; and
no step changes a parameter (R20). -/
def Obligations.NoStepWritesRomOrParams : Prop :=
  ∀ s t : State, step s = .next t →
    (∀ a, Memory.read t.urom a = Memory.read s.urom a) ∧ (∀ v, t.lut v = s.lut v) ∧ t.params = s.params

/-- R20, R28, R35, R156: each register, flag and pin is written only by the micro-ops the spec's state table names,
UROM, parameters, `rst_n` and the script by none. It is every instruction's frame. -/
def Obligations.OnlyNamedWritersWrite : Prop :=
  ∀ (i : Instr) (s t : State), exec i s = .next t →
    (t.val ≠ s.val → i = .inc) ∧
    (t.pat ≠ s.pat ∨ t.patWritten ≠ s.patWritten → i = .enc) ∧
    (t.pos ≠ s.pos → i = .pll ∨ i = .plr) ∧
    (t.lt ≠ s.lt → i = .pll) ∧
    (t.flagL ≠ s.flagL → i = .pll ∨ i = .ntfL) ∧
    (t.flagR ≠ s.flagR → i = .plr ∨ i = .ntfR) ∧
    (t.ser ≠ s.ser ∨ t.srclk ≠ s.srclk → i ∈ [.shb0, .shb1, .shb2, .shb3, .shb4, .shb5, .shb6]) ∧
    (t.rclk ≠ s.rclk → i = .lat) ∧
    (t.srclrN ≠ s.srclrN → i = .srst) ∧
    (t.dig ≠ s.dig → i = .drv) ∧
    (t.srS ≠ s.srS → i ∈ [.srst, .shb0, .shb1, .shb2, .shb3, .shb4, .shb5, .shb6]) ∧
    (t.srQ ≠ s.srQ → i = .srst ∨ i = .lat) ∧
    (t.upc ≠ s.upc → i.isNotify = false) ∧
    t.rstN = s.rstN ∧ t.urom = s.urom ∧ t.params = s.params ∧ t.sched = s.sched ∧ t.tick = s.tick ∧
    ∃ events, t.trace = s.trace ++ events

/-- R137, derived by the spec from R124 to R126: between micro-ops `SRCLK` and `RCLK` are 0 and `SRCLR_n` is 1: so it
is at reset, and every step, of any agent or of the reset input, keeps it. -/
def Obligations.PinsIdleBetweenMicroOps : Prop :=
  State.reset.PinsIdle ∧ ∀ s t : State, s.PinsIdle → step s = .next t → t.PinsIdle

/-- The machine's invariant: every step of every agent, and of the reset input, keeps it. -/
def Obligations.StepKeepsMachineInvariant : Prop :=
  ∀ s t : State, s.Inv → step s = .next t → t.Inv

/-- The machine's invariant holds right after reset, whatever the SIPO holds. -/
def Obligations.ResetMeetsMachineInvariant : Prop :=
  (∀ stages outputs : Byte, (State.resetWith stages outputs).Inv) ∧ State.reset.Inv

/-- R198: from a state of the machine's invariant no run of any length, under any script and any free turns, ends in a
fault or a refusal. -/
def Obligations.RunsNeverStop : Prop :=
  ∀ (k : Nat) (s : State), s.Inv → SafeRun k s

/-- R193, derived by the spec from R192: from a state of the machine's invariant a turn that is not the reset input's
leaves `upc` among 0x0 to 0xE, moves it only as R193 says, and sets it to 0 never: `upc` is 0 after it only if it was
before and no SCAN step ran. -/
def Obligations.UpcFollowsMicroprogram : Prop :=
  ∀ (s t : State), s.Inv → s.rstN = true →
    (takeTurn .scan s = .next t → t.upc ≠ 0xF#4 ∧ t.upc ≠ 0x0#4 ∧
      t.upc = if s.upc = 0xE#4 then 0x1#4
              else if s.upc = 0x9#4 ∧ s.flagL = true ∧ s.params.rightPolicy = .defer then 0xB#4
              else s.upc + 1#4) ∧
    (takeTurn .edgeL s = .next t ∨ takeTurn .edgeR s = .next t → t.upc = s.upc)

/-- The pin trace's invariant: every step keeps it, from states of the machine's invariant. It says that pins hold the
level last written (R29), that seven rises of `SRCLK` belong to each rise of `RCLK` (R135), that a frame has 24 events
(R262), that every mask driven is one-hot (R154), and that the frame value counts the latched frames (R195). -/
def Obligations.StepKeepsTraceInvariant : Prop :=
  ∀ s t : State, s.Inv → s.TraceInv → step s = .next t → t.TraceInv

/-- The pin trace's invariant holds right after reset, whatever the SIPO holds. -/
def Obligations.ResetMeetsTraceInvariant : Prop :=
  (∀ stages outputs : Byte, (State.resetWith stages outputs).TraceInv) ∧ State.reset.TraceInv

/-- R154 and R253, derived by the spec from R153 and R251: before the first DRV no segment of any digit is lit,
whatever the SIPO holds; from then on exactly one digit line is 1, so at most one digit is lit. -/
def Obligations.DarkUntilFirstDriveThenOneDigit : Prop :=
  ∀ s : State, s.TraceInv →
    ((∀ e ∈ s.trace, e.isDig = false) → s.dig = 0x0#4 ∧ ∀ p x, s.lit p x = false) ∧
    ((∃ e ∈ s.trace, e.isDig = true) →
      ∃ p : BitVec 2, s.dig = onehot4 p ∧ ∀ q x, s.lit q x = true → q = p)

/-! ### A frame -/

/-- R133, derived by the spec from R123 to R129: seven SHB from idle pins put the complement of each pattern bit into
its stage, move the stage that gets no new bit from the entry's end of the previous contents, leave the outputs alone;
LAT then copies the stages to them. It holds also where `pat` is unwritten, where R12 and R13 call SHB's read a model
fault: that SHB runs there is the model's choice (log 1). -/
def Obligations.TransmitFillsStages : Prop :=
  ∀ s : State, s.PinsIdle →
    ∃ t, execSeq (Pseudo.expand .xmit) s = .next t ∧ t.srQ = s.srQ ∧
      (∀ i : Nat, i < 7 →
        let sent := !s.pat.getLsbD (if s.params.emitOrder = .idx0First then i else 6 - i)
        t.srS.getLsbD (if s.params.srEntry = .q0 then 6 - i else 1 + i) = sent) ∧
      (if s.params.srEntry = .q0 then t.srS.getLsbD 7 = s.srS.getLsbD 0
       else t.srS.getLsbD 0 = s.srS.getLsbD 7) ∧
      ∃ u, exec .lat t = .next u ∧ u.srQ = t.srS ∧ u.srS = t.srS

/-- R133's carried output, derived by the spec: in a state of the machine's invariant, before a frame's first slot,
the stage that the frame will not refill is going to hold the bit sent last: the last slot's of the previous frame, or
the 0 that SRST left. -/
def Obligations.CarriedOutputIsLastBitSent : Prop :=
  ∀ s : State, s.Inv → s.upc = 0x2#4 →
    ∃ t, execSeq (Pseudo.expand .xmit) s = .next t ∧
      t.srS.getLsbD (carriedIndex s.params.srEntry) = s.ser

/-- R131, R132, and R133 which the spec derives: in a state of the machine's invariant under the glyph-correct wiring,
between a frame's latch and its end, the lit segments are exactly the segments ON in the glyph of the frame's value,
on the digit of the present position. It holds for every glyph table, emission order, entry end and policy, and under
every schedule. -/
def Obligations.DisplayShowsFrameGlyph : Prop :=
  ∀ s : State, s.Inv → s.params.GlyphCorrect → s.upc = 0xD#4 ∨ s.upc = 0xE#4 →
    ∀ (p : BitVec 2) (x : Segment), s.lit p x = true ↔ (p = s.pos ∧ Pattern.on (s.lut s.val) x = true)

/-- R259, derived by the spec from R192, R129 and R132: DRV shows the outputs latched before on the digit just
enabled; from SRST until the first rise of `RCLK` those outputs are 0x00, which every step keeps, whatever the edges,
the reset input and the parameters; so in frame 0, between DRV and LAT, the digit of the position shows every segment.
-/
def Obligations.StaleGlyphBetweenDriveAndLatch : Prop :=
  (∀ s : State, ∃ t, exec .drv s = .next t ∧ t.srQ = s.srQ ∧
    ∀ p x, t.lit p x = (decide (p = s.pos) && !s.srQ.getLsbD (s.params.segWire.index x).toNat)) ∧
  (∀ stages outputs : Byte, (State.resetWith stages outputs).BlankBeforeLatch) ∧
  (∀ s t : State, s.Inv → s.TraceInv → s.BlankBeforeLatch → step s = .next t → t.BlankBeforeLatch) ∧
  ∀ s : State, s.Inv → s.BlankBeforeLatch → s.upc = 0xC#4 → s.rises .rclk = 0 →
    ∀ p x, s.lit p x = decide (p = s.pos)

/-- R194 (the spec's decision D13): PLL and, unless it is skipped, PLR, with any edges between them: left wins, at
most one of the two moves happens, the right flag stays pending under `DEFER` where left was taken, PLR reads the
right flag as the edges left it, and an edge on the left after PLL waits. -/
def Obligations.PollGivesLeftPriority : Prop :=
  ∀ (s : State) (edges rest : List Turn), s.FixedProgram → s.rstN = true → s.upc = 0x9#4 →
    (∀ t ∈ edges, t = .edgeL ∨ t = .edgeR) →
    let skip := s.flagL = true ∧ s.params.rightPolicy = .defer
    let right := s.flagR || decide (.edgeR ∈ edges)
    let turns := .scan :: edges ++ (if skip then [] else [.scan])
    s.sched = turns ++ rest →
    Sys2Proof.core.run turns.length s = .next { s with
      sched := rest, upc := 0xB#4, lt := s.flagL, flagL := decide (.edgeL ∈ edges),
      flagR := if skip then right else false,
      pos := if s.flagL then s.pos + 3#2 else if right then s.pos + 1#2 else s.pos }

/-- R197, derived by the spec from R192: from a frame boundary the SCAN steps of one frame give what FRAME() gives. -/
def Obligations.FrameRefinesFunction : Prop :=
  ∀ (s : State) (rest : List Turn), s.FixedProgram → s.rstN = true → s.upc = 0x1#4 →
    s.sched = List.replicate s.frameSteps .scan ++ rest →
    Sys2Proof.core.run s.frameSteps s = .next { s.frame with sched := rest }

/-- R262 and R135, derived by the spec from R192: the SCAN steps of one frame emit exactly 24 events: for each slot
the data and a pulse of `SRCLK`, then the digit lines, then one pulse of `RCLK`. -/
def Obligations.FrameEmitsTwentyFourEvents : Prop :=
  ∀ (s : State) (rest : List Turn), s.FixedProgram → s.rstN = true → s.upc = 0x1#4 →
    s.sched = List.replicate s.frameSteps .scan ++ rest →
    ∃ (t : State) (slots : List PinEvent),
      Sys2Proof.core.run s.frameSteps s = .next t ∧
      slots = ([0, 1, 2, 3, 4, 5, 6] : List Nat).flatMap (fun i =>
        [.line .ser (!(s.lut s.val).getLsbD (if s.params.emitOrder = .idx0First then i else 6 - i)),
          .line .srclk true, .line .srclk false]) ∧
      t.trace = s.trace ++ slots ++ [.dig (onehot4 t.pos), .line .rclk true, .line .rclk false] ∧
      t.trace.length = s.trace.length + 24

/-- R203 (the spec's decision D22; log 17): in any schedule of agents' turns that gives SCAN fifteen of them, the
frame value advances: some prefix of the schedule runs an INC. The fifteen turns stand for the premise of weak
fairness. -/
def Obligations.FrameValueAdvances : Prop :=
  ∀ (s : State) (turns rest : List Turn), s.Inv → s.rstN = true → s.sched = turns ++ rest →
    (∀ t ∈ turns, t = .scan ∨ t = .edgeL ∨ t = .edgeR) → 15 ≤ turns.count .scan →
    ∃ k ≤ turns.length, ∃ t, Sys2Proof.core.run k s = .next t ∧ t.val = s.val + 1#4 ∧ t.upc = 0x1#4
end

