-- ==== Sys2Proof/Laws/State.lean ====
section
/-! SUPPORT. What each update of the state leaves and sets: one lemma per field per update, so that no proof unfolds a
record update. -/

namespace Sys2Proof.Machine.State

variable (s : State)
/-! ### setUpc -/
@[simp] theorem setUpc_upc (v : Nibble) : (s.setUpc v).upc = v := rfl
@[simp] theorem setUpc_val (v : Nibble) : (s.setUpc v).val = s.val := rfl
@[simp] theorem setUpc_pat (v : Nibble) : (s.setUpc v).pat = s.pat := rfl
@[simp] theorem setUpc_patWritten (v : Nibble) : (s.setUpc v).patWritten = s.patWritten := rfl
@[simp] theorem setUpc_pos (v : Nibble) : (s.setUpc v).pos = s.pos := rfl
@[simp] theorem setUpc_lt (v : Nibble) : (s.setUpc v).lt = s.lt := rfl
@[simp] theorem setUpc_flagL (v : Nibble) : (s.setUpc v).flagL = s.flagL := rfl
@[simp] theorem setUpc_flagR (v : Nibble) : (s.setUpc v).flagR = s.flagR := rfl
@[simp] theorem setUpc_ser (v : Nibble) : (s.setUpc v).ser = s.ser := rfl
@[simp] theorem setUpc_srclk (v : Nibble) : (s.setUpc v).srclk = s.srclk := rfl
@[simp] theorem setUpc_rclk (v : Nibble) : (s.setUpc v).rclk = s.rclk := rfl
@[simp] theorem setUpc_srclrN (v : Nibble) : (s.setUpc v).srclrN = s.srclrN := rfl
@[simp] theorem setUpc_dig (v : Nibble) : (s.setUpc v).dig = s.dig := rfl
@[simp] theorem setUpc_rstN (v : Nibble) : (s.setUpc v).rstN = s.rstN := rfl
@[simp] theorem setUpc_srS (v : Nibble) : (s.setUpc v).srS = s.srS := rfl
@[simp] theorem setUpc_srQ (v : Nibble) : (s.setUpc v).srQ = s.srQ := rfl
@[simp] theorem setUpc_trace (v : Nibble) : (s.setUpc v).trace = s.trace := rfl
@[simp] theorem setUpc_urom (v : Nibble) : (s.setUpc v).urom = s.urom := rfl
@[simp] theorem setUpc_params (v : Nibble) : (s.setUpc v).params = s.params := rfl
@[simp] theorem setUpc_sched (v : Nibble) : (s.setUpc v).sched = s.sched := rfl
@[simp] theorem setUpc_tick (v : Nibble) : (s.setUpc v).tick = s.tick := rfl

/-! ### setVal -/
@[simp] theorem setVal_upc (v : Nibble) : (s.setVal v).upc = s.upc := rfl
@[simp] theorem setVal_val (v : Nibble) : (s.setVal v).val = v := rfl
@[simp] theorem setVal_pat (v : Nibble) : (s.setVal v).pat = s.pat := rfl
@[simp] theorem setVal_patWritten (v : Nibble) : (s.setVal v).patWritten = s.patWritten := rfl
@[simp] theorem setVal_pos (v : Nibble) : (s.setVal v).pos = s.pos := rfl
@[simp] theorem setVal_lt (v : Nibble) : (s.setVal v).lt = s.lt := rfl
@[simp] theorem setVal_flagL (v : Nibble) : (s.setVal v).flagL = s.flagL := rfl
@[simp] theorem setVal_flagR (v : Nibble) : (s.setVal v).flagR = s.flagR := rfl
@[simp] theorem setVal_ser (v : Nibble) : (s.setVal v).ser = s.ser := rfl
@[simp] theorem setVal_srclk (v : Nibble) : (s.setVal v).srclk = s.srclk := rfl
@[simp] theorem setVal_rclk (v : Nibble) : (s.setVal v).rclk = s.rclk := rfl
@[simp] theorem setVal_srclrN (v : Nibble) : (s.setVal v).srclrN = s.srclrN := rfl
@[simp] theorem setVal_dig (v : Nibble) : (s.setVal v).dig = s.dig := rfl
@[simp] theorem setVal_rstN (v : Nibble) : (s.setVal v).rstN = s.rstN := rfl
@[simp] theorem setVal_srS (v : Nibble) : (s.setVal v).srS = s.srS := rfl
@[simp] theorem setVal_srQ (v : Nibble) : (s.setVal v).srQ = s.srQ := rfl
@[simp] theorem setVal_trace (v : Nibble) : (s.setVal v).trace = s.trace := rfl
@[simp] theorem setVal_urom (v : Nibble) : (s.setVal v).urom = s.urom := rfl
@[simp] theorem setVal_params (v : Nibble) : (s.setVal v).params = s.params := rfl
@[simp] theorem setVal_sched (v : Nibble) : (s.setVal v).sched = s.sched := rfl
@[simp] theorem setVal_tick (v : Nibble) : (s.setVal v).tick = s.tick := rfl

/-! ### setPat -/
@[simp] theorem setPat_upc (v : Pattern) : (s.setPat v).upc = s.upc := rfl
@[simp] theorem setPat_val (v : Pattern) : (s.setPat v).val = s.val := rfl
@[simp] theorem setPat_pat (v : Pattern) : (s.setPat v).pat = v := rfl
@[simp] theorem setPat_patWritten (v : Pattern) : (s.setPat v).patWritten = true := rfl
@[simp] theorem setPat_pos (v : Pattern) : (s.setPat v).pos = s.pos := rfl
@[simp] theorem setPat_lt (v : Pattern) : (s.setPat v).lt = s.lt := rfl
@[simp] theorem setPat_flagL (v : Pattern) : (s.setPat v).flagL = s.flagL := rfl
@[simp] theorem setPat_flagR (v : Pattern) : (s.setPat v).flagR = s.flagR := rfl
@[simp] theorem setPat_ser (v : Pattern) : (s.setPat v).ser = s.ser := rfl
@[simp] theorem setPat_srclk (v : Pattern) : (s.setPat v).srclk = s.srclk := rfl
@[simp] theorem setPat_rclk (v : Pattern) : (s.setPat v).rclk = s.rclk := rfl
@[simp] theorem setPat_srclrN (v : Pattern) : (s.setPat v).srclrN = s.srclrN := rfl
@[simp] theorem setPat_dig (v : Pattern) : (s.setPat v).dig = s.dig := rfl
@[simp] theorem setPat_rstN (v : Pattern) : (s.setPat v).rstN = s.rstN := rfl
@[simp] theorem setPat_srS (v : Pattern) : (s.setPat v).srS = s.srS := rfl
@[simp] theorem setPat_srQ (v : Pattern) : (s.setPat v).srQ = s.srQ := rfl
@[simp] theorem setPat_trace (v : Pattern) : (s.setPat v).trace = s.trace := rfl
@[simp] theorem setPat_urom (v : Pattern) : (s.setPat v).urom = s.urom := rfl
@[simp] theorem setPat_params (v : Pattern) : (s.setPat v).params = s.params := rfl
@[simp] theorem setPat_sched (v : Pattern) : (s.setPat v).sched = s.sched := rfl
@[simp] theorem setPat_tick (v : Pattern) : (s.setPat v).tick = s.tick := rfl

/-! ### setPos -/
@[simp] theorem setPos_upc (v : BitVec 2) : (s.setPos v).upc = s.upc := rfl
@[simp] theorem setPos_val (v : BitVec 2) : (s.setPos v).val = s.val := rfl
@[simp] theorem setPos_pat (v : BitVec 2) : (s.setPos v).pat = s.pat := rfl
@[simp] theorem setPos_patWritten (v : BitVec 2) : (s.setPos v).patWritten = s.patWritten := rfl
@[simp] theorem setPos_pos (v : BitVec 2) : (s.setPos v).pos = v := rfl
@[simp] theorem setPos_lt (v : BitVec 2) : (s.setPos v).lt = s.lt := rfl
@[simp] theorem setPos_flagL (v : BitVec 2) : (s.setPos v).flagL = s.flagL := rfl
@[simp] theorem setPos_flagR (v : BitVec 2) : (s.setPos v).flagR = s.flagR := rfl
@[simp] theorem setPos_ser (v : BitVec 2) : (s.setPos v).ser = s.ser := rfl
@[simp] theorem setPos_srclk (v : BitVec 2) : (s.setPos v).srclk = s.srclk := rfl
@[simp] theorem setPos_rclk (v : BitVec 2) : (s.setPos v).rclk = s.rclk := rfl
@[simp] theorem setPos_srclrN (v : BitVec 2) : (s.setPos v).srclrN = s.srclrN := rfl
@[simp] theorem setPos_dig (v : BitVec 2) : (s.setPos v).dig = s.dig := rfl
@[simp] theorem setPos_rstN (v : BitVec 2) : (s.setPos v).rstN = s.rstN := rfl
@[simp] theorem setPos_srS (v : BitVec 2) : (s.setPos v).srS = s.srS := rfl
@[simp] theorem setPos_srQ (v : BitVec 2) : (s.setPos v).srQ = s.srQ := rfl
@[simp] theorem setPos_trace (v : BitVec 2) : (s.setPos v).trace = s.trace := rfl
@[simp] theorem setPos_urom (v : BitVec 2) : (s.setPos v).urom = s.urom := rfl
@[simp] theorem setPos_params (v : BitVec 2) : (s.setPos v).params = s.params := rfl
@[simp] theorem setPos_sched (v : BitVec 2) : (s.setPos v).sched = s.sched := rfl
@[simp] theorem setPos_tick (v : BitVec 2) : (s.setPos v).tick = s.tick := rfl

/-! ### setLt -/
@[simp] theorem setLt_upc (v : Level) : (s.setLt v).upc = s.upc := rfl
@[simp] theorem setLt_val (v : Level) : (s.setLt v).val = s.val := rfl
@[simp] theorem setLt_pat (v : Level) : (s.setLt v).pat = s.pat := rfl
@[simp] theorem setLt_patWritten (v : Level) : (s.setLt v).patWritten = s.patWritten := rfl
@[simp] theorem setLt_pos (v : Level) : (s.setLt v).pos = s.pos := rfl
@[simp] theorem setLt_lt (v : Level) : (s.setLt v).lt = v := rfl
@[simp] theorem setLt_flagL (v : Level) : (s.setLt v).flagL = s.flagL := rfl
@[simp] theorem setLt_flagR (v : Level) : (s.setLt v).flagR = s.flagR := rfl
@[simp] theorem setLt_ser (v : Level) : (s.setLt v).ser = s.ser := rfl
@[simp] theorem setLt_srclk (v : Level) : (s.setLt v).srclk = s.srclk := rfl
@[simp] theorem setLt_rclk (v : Level) : (s.setLt v).rclk = s.rclk := rfl
@[simp] theorem setLt_srclrN (v : Level) : (s.setLt v).srclrN = s.srclrN := rfl
@[simp] theorem setLt_dig (v : Level) : (s.setLt v).dig = s.dig := rfl
@[simp] theorem setLt_rstN (v : Level) : (s.setLt v).rstN = s.rstN := rfl
@[simp] theorem setLt_srS (v : Level) : (s.setLt v).srS = s.srS := rfl
@[simp] theorem setLt_srQ (v : Level) : (s.setLt v).srQ = s.srQ := rfl
@[simp] theorem setLt_trace (v : Level) : (s.setLt v).trace = s.trace := rfl
@[simp] theorem setLt_urom (v : Level) : (s.setLt v).urom = s.urom := rfl
@[simp] theorem setLt_params (v : Level) : (s.setLt v).params = s.params := rfl
@[simp] theorem setLt_sched (v : Level) : (s.setLt v).sched = s.sched := rfl
@[simp] theorem setLt_tick (v : Level) : (s.setLt v).tick = s.tick := rfl

/-! ### setSipo -/
@[simp] theorem setSipo_upc (a b : Byte) : (s.setSipo a b).upc = s.upc := rfl
@[simp] theorem setSipo_val (a b : Byte) : (s.setSipo a b).val = s.val := rfl
@[simp] theorem setSipo_pat (a b : Byte) : (s.setSipo a b).pat = s.pat := rfl
@[simp] theorem setSipo_patWritten (a b : Byte) : (s.setSipo a b).patWritten = s.patWritten := rfl
@[simp] theorem setSipo_pos (a b : Byte) : (s.setSipo a b).pos = s.pos := rfl
@[simp] theorem setSipo_lt (a b : Byte) : (s.setSipo a b).lt = s.lt := rfl
@[simp] theorem setSipo_flagL (a b : Byte) : (s.setSipo a b).flagL = s.flagL := rfl
@[simp] theorem setSipo_flagR (a b : Byte) : (s.setSipo a b).flagR = s.flagR := rfl
@[simp] theorem setSipo_ser (a b : Byte) : (s.setSipo a b).ser = s.ser := rfl
@[simp] theorem setSipo_srclk (a b : Byte) : (s.setSipo a b).srclk = s.srclk := rfl
@[simp] theorem setSipo_rclk (a b : Byte) : (s.setSipo a b).rclk = s.rclk := rfl
@[simp] theorem setSipo_srclrN (a b : Byte) : (s.setSipo a b).srclrN = s.srclrN := rfl
@[simp] theorem setSipo_dig (a b : Byte) : (s.setSipo a b).dig = s.dig := rfl
@[simp] theorem setSipo_rstN (a b : Byte) : (s.setSipo a b).rstN = s.rstN := rfl
@[simp] theorem setSipo_srS (a b : Byte) : (s.setSipo a b).srS = a := rfl
@[simp] theorem setSipo_srQ (a b : Byte) : (s.setSipo a b).srQ = b := rfl
@[simp] theorem setSipo_trace (a b : Byte) : (s.setSipo a b).trace = s.trace := rfl
@[simp] theorem setSipo_urom (a b : Byte) : (s.setSipo a b).urom = s.urom := rfl
@[simp] theorem setSipo_params (a b : Byte) : (s.setSipo a b).params = s.params := rfl
@[simp] theorem setSipo_sched (a b : Byte) : (s.setSipo a b).sched = s.sched := rfl
@[simp] theorem setSipo_tick (a b : Byte) : (s.setSipo a b).tick = s.tick := rfl

/-! ### emit -/
@[simp] theorem emit_upc (e : PinEvent) : (s.emit e).upc = s.upc := rfl
@[simp] theorem emit_val (e : PinEvent) : (s.emit e).val = s.val := rfl
@[simp] theorem emit_pat (e : PinEvent) : (s.emit e).pat = s.pat := rfl
@[simp] theorem emit_patWritten (e : PinEvent) : (s.emit e).patWritten = s.patWritten := rfl
@[simp] theorem emit_pos (e : PinEvent) : (s.emit e).pos = s.pos := rfl
@[simp] theorem emit_lt (e : PinEvent) : (s.emit e).lt = s.lt := rfl
@[simp] theorem emit_flagL (e : PinEvent) : (s.emit e).flagL = s.flagL := rfl
@[simp] theorem emit_flagR (e : PinEvent) : (s.emit e).flagR = s.flagR := rfl
@[simp] theorem emit_ser (e : PinEvent) : (s.emit e).ser = s.ser := rfl
@[simp] theorem emit_srclk (e : PinEvent) : (s.emit e).srclk = s.srclk := rfl
@[simp] theorem emit_rclk (e : PinEvent) : (s.emit e).rclk = s.rclk := rfl
@[simp] theorem emit_srclrN (e : PinEvent) : (s.emit e).srclrN = s.srclrN := rfl
@[simp] theorem emit_dig (e : PinEvent) : (s.emit e).dig = s.dig := rfl
@[simp] theorem emit_rstN (e : PinEvent) : (s.emit e).rstN = s.rstN := rfl
@[simp] theorem emit_srS (e : PinEvent) : (s.emit e).srS = s.srS := rfl
@[simp] theorem emit_srQ (e : PinEvent) : (s.emit e).srQ = s.srQ := rfl
@[simp] theorem emit_trace (e : PinEvent) : (s.emit e).trace = s.trace ++ [e] := rfl
@[simp] theorem emit_urom (e : PinEvent) : (s.emit e).urom = s.urom := rfl
@[simp] theorem emit_params (e : PinEvent) : (s.emit e).params = s.params := rfl
@[simp] theorem emit_sched (e : PinEvent) : (s.emit e).sched = s.sched := rfl
@[simp] theorem emit_tick (e : PinEvent) : (s.emit e).tick = s.tick := rfl

/-! ### setDig -/
@[simp] theorem setDig_upc (m : Nibble) : (s.setDig m).upc = s.upc := rfl
@[simp] theorem setDig_val (m : Nibble) : (s.setDig m).val = s.val := rfl
@[simp] theorem setDig_pat (m : Nibble) : (s.setDig m).pat = s.pat := rfl
@[simp] theorem setDig_patWritten (m : Nibble) : (s.setDig m).patWritten = s.patWritten := rfl
@[simp] theorem setDig_pos (m : Nibble) : (s.setDig m).pos = s.pos := rfl
@[simp] theorem setDig_lt (m : Nibble) : (s.setDig m).lt = s.lt := rfl
@[simp] theorem setDig_flagL (m : Nibble) : (s.setDig m).flagL = s.flagL := rfl
@[simp] theorem setDig_flagR (m : Nibble) : (s.setDig m).flagR = s.flagR := rfl
@[simp] theorem setDig_ser (m : Nibble) : (s.setDig m).ser = s.ser := rfl
@[simp] theorem setDig_srclk (m : Nibble) : (s.setDig m).srclk = s.srclk := rfl
@[simp] theorem setDig_rclk (m : Nibble) : (s.setDig m).rclk = s.rclk := rfl
@[simp] theorem setDig_srclrN (m : Nibble) : (s.setDig m).srclrN = s.srclrN := rfl
@[simp] theorem setDig_dig (m : Nibble) : (s.setDig m).dig = m := rfl
@[simp] theorem setDig_rstN (m : Nibble) : (s.setDig m).rstN = s.rstN := rfl
@[simp] theorem setDig_srS (m : Nibble) : (s.setDig m).srS = s.srS := rfl
@[simp] theorem setDig_srQ (m : Nibble) : (s.setDig m).srQ = s.srQ := rfl
@[simp] theorem setDig_trace (m : Nibble) : (s.setDig m).trace = s.trace := rfl
@[simp] theorem setDig_urom (m : Nibble) : (s.setDig m).urom = s.urom := rfl
@[simp] theorem setDig_params (m : Nibble) : (s.setDig m).params = s.params := rfl
@[simp] theorem setDig_sched (m : Nibble) : (s.setDig m).sched = s.sched := rfl
@[simp] theorem setDig_tick (m : Nibble) : (s.setDig m).tick = s.tick := rfl

/-! ### setFlag -/
@[simp] theorem setFlag_upc (w : Button) (v : Level) : (s.setFlag w v).upc = s.upc := by cases w <;> rfl
@[simp] theorem setFlag_val (w : Button) (v : Level) : (s.setFlag w v).val = s.val := by cases w <;> rfl
@[simp] theorem setFlag_pat (w : Button) (v : Level) : (s.setFlag w v).pat = s.pat := by cases w <;> rfl
@[simp] theorem setFlag_patWritten (w : Button) (v : Level) : (s.setFlag w v).patWritten = s.patWritten := by cases w <;> rfl
@[simp] theorem setFlag_pos (w : Button) (v : Level) : (s.setFlag w v).pos = s.pos := by cases w <;> rfl
@[simp] theorem setFlag_lt (w : Button) (v : Level) : (s.setFlag w v).lt = s.lt := by cases w <;> rfl
@[simp] theorem setFlag_ser (w : Button) (v : Level) : (s.setFlag w v).ser = s.ser := by cases w <;> rfl
@[simp] theorem setFlag_srclk (w : Button) (v : Level) : (s.setFlag w v).srclk = s.srclk := by cases w <;> rfl
@[simp] theorem setFlag_rclk (w : Button) (v : Level) : (s.setFlag w v).rclk = s.rclk := by cases w <;> rfl
@[simp] theorem setFlag_srclrN (w : Button) (v : Level) : (s.setFlag w v).srclrN = s.srclrN := by cases w <;> rfl
@[simp] theorem setFlag_dig (w : Button) (v : Level) : (s.setFlag w v).dig = s.dig := by cases w <;> rfl
@[simp] theorem setFlag_rstN (w : Button) (v : Level) : (s.setFlag w v).rstN = s.rstN := by cases w <;> rfl
@[simp] theorem setFlag_srS (w : Button) (v : Level) : (s.setFlag w v).srS = s.srS := by cases w <;> rfl
@[simp] theorem setFlag_srQ (w : Button) (v : Level) : (s.setFlag w v).srQ = s.srQ := by cases w <;> rfl
@[simp] theorem setFlag_trace (w : Button) (v : Level) : (s.setFlag w v).trace = s.trace := by cases w <;> rfl
@[simp] theorem setFlag_urom (w : Button) (v : Level) : (s.setFlag w v).urom = s.urom := by cases w <;> rfl
@[simp] theorem setFlag_params (w : Button) (v : Level) : (s.setFlag w v).params = s.params := by cases w <;> rfl
@[simp] theorem setFlag_sched (w : Button) (v : Level) : (s.setFlag w v).sched = s.sched := by cases w <;> rfl
@[simp] theorem setFlag_tick (w : Button) (v : Level) : (s.setFlag w v).tick = s.tick := by cases w <;> rfl
@[simp] theorem setFlag_left_flagL (v : Level) : (s.setFlag .left v).flagL = v := rfl
@[simp] theorem setFlag_left_flagR (v : Level) : (s.setFlag .left v).flagR = s.flagR := rfl
@[simp] theorem setFlag_right_flagL (v : Level) : (s.setFlag .right v).flagL = s.flagL := rfl
@[simp] theorem setFlag_right_flagR (v : Level) : (s.setFlag .right v).flagR = v := rfl
@[simp] theorem setFlag_flag (w : Button) (v : Level) : (s.setFlag w v).flag w = v := by cases w <;> rfl
theorem setFlag_flag_other (w u : Button) (v : Level) (h : u ≠ w) : (s.setFlag w v).flag u = s.flag u := by
  cases w <;> cases u <;> first | rfl | exact absurd rfl h

/-! ### setLevel -/
@[simp] theorem setLevel_upc (p : Pin) (v : Level) : (s.setLevel p v).upc = s.upc := by cases p <;> rfl
@[simp] theorem setLevel_val (p : Pin) (v : Level) : (s.setLevel p v).val = s.val := by cases p <;> rfl
@[simp] theorem setLevel_pat (p : Pin) (v : Level) : (s.setLevel p v).pat = s.pat := by cases p <;> rfl
@[simp] theorem setLevel_patWritten (p : Pin) (v : Level) : (s.setLevel p v).patWritten = s.patWritten := by cases p <;> rfl
@[simp] theorem setLevel_pos (p : Pin) (v : Level) : (s.setLevel p v).pos = s.pos := by cases p <;> rfl
@[simp] theorem setLevel_lt (p : Pin) (v : Level) : (s.setLevel p v).lt = s.lt := by cases p <;> rfl
@[simp] theorem setLevel_flagL (p : Pin) (v : Level) : (s.setLevel p v).flagL = s.flagL := by cases p <;> rfl
@[simp] theorem setLevel_flagR (p : Pin) (v : Level) : (s.setLevel p v).flagR = s.flagR := by cases p <;> rfl
@[simp] theorem setLevel_dig (p : Pin) (v : Level) : (s.setLevel p v).dig = s.dig := by cases p <;> rfl
@[simp] theorem setLevel_rstN (p : Pin) (v : Level) : (s.setLevel p v).rstN = s.rstN := by cases p <;> rfl
@[simp] theorem setLevel_srS (p : Pin) (v : Level) : (s.setLevel p v).srS = s.srS := by cases p <;> rfl
@[simp] theorem setLevel_srQ (p : Pin) (v : Level) : (s.setLevel p v).srQ = s.srQ := by cases p <;> rfl
@[simp] theorem setLevel_trace (p : Pin) (v : Level) : (s.setLevel p v).trace = s.trace := by cases p <;> rfl
@[simp] theorem setLevel_urom (p : Pin) (v : Level) : (s.setLevel p v).urom = s.urom := by cases p <;> rfl
@[simp] theorem setLevel_params (p : Pin) (v : Level) : (s.setLevel p v).params = s.params := by cases p <;> rfl
@[simp] theorem setLevel_sched (p : Pin) (v : Level) : (s.setLevel p v).sched = s.sched := by cases p <;> rfl
@[simp] theorem setLevel_tick (p : Pin) (v : Level) : (s.setLevel p v).tick = s.tick := by cases p <;> rfl
@[simp] theorem setLevel_ser_ser (v : Level) : (s.setLevel .ser v).ser = v := rfl
@[simp] theorem setLevel_ser_srclk (v : Level) : (s.setLevel .ser v).srclk = s.srclk := rfl
@[simp] theorem setLevel_ser_rclk (v : Level) : (s.setLevel .ser v).rclk = s.rclk := rfl
@[simp] theorem setLevel_ser_srclrN (v : Level) : (s.setLevel .ser v).srclrN = s.srclrN := rfl
@[simp] theorem setLevel_srclk_ser (v : Level) : (s.setLevel .srclk v).ser = s.ser := rfl
@[simp] theorem setLevel_srclk_srclk (v : Level) : (s.setLevel .srclk v).srclk = v := rfl
@[simp] theorem setLevel_srclk_rclk (v : Level) : (s.setLevel .srclk v).rclk = s.rclk := rfl
@[simp] theorem setLevel_srclk_srclrN (v : Level) : (s.setLevel .srclk v).srclrN = s.srclrN := rfl
@[simp] theorem setLevel_rclk_ser (v : Level) : (s.setLevel .rclk v).ser = s.ser := rfl
@[simp] theorem setLevel_rclk_srclk (v : Level) : (s.setLevel .rclk v).srclk = s.srclk := rfl
@[simp] theorem setLevel_rclk_rclk (v : Level) : (s.setLevel .rclk v).rclk = v := rfl
@[simp] theorem setLevel_rclk_srclrN (v : Level) : (s.setLevel .rclk v).srclrN = s.srclrN := rfl
@[simp] theorem setLevel_srclrN_ser (v : Level) : (s.setLevel .srclrN v).ser = s.ser := rfl
@[simp] theorem setLevel_srclrN_srclk (v : Level) : (s.setLevel .srclrN v).srclk = s.srclk := rfl
@[simp] theorem setLevel_srclrN_rclk (v : Level) : (s.setLevel .srclrN v).rclk = s.rclk := rfl
@[simp] theorem setLevel_srclrN_srclrN (v : Level) : (s.setLevel .srclrN v).srclrN = v := rfl
@[simp] theorem setLevel_level (p : Pin) (v : Level) : (s.setLevel p v).level p = v := by cases p <;> rfl
theorem setLevel_level_other (p q : Pin) (v : Level) (h : q ≠ p) : (s.setLevel p v).level q = s.level q := by
  cases p <;> cases q <;> first | rfl | exact absurd rfl h

/-! ### advance -/

@[simp] theorem advance_upc : s.advance.upc = s.upc + 1#4 := rfl
@[simp] theorem advance_val : s.advance.val = s.val := rfl
@[simp] theorem advance_pat : s.advance.pat = s.pat := rfl
@[simp] theorem advance_patWritten : s.advance.patWritten = s.patWritten := rfl
@[simp] theorem advance_pos : s.advance.pos = s.pos := rfl
@[simp] theorem advance_lt : s.advance.lt = s.lt := rfl
@[simp] theorem advance_flagL : s.advance.flagL = s.flagL := rfl
@[simp] theorem advance_flagR : s.advance.flagR = s.flagR := rfl
@[simp] theorem advance_ser : s.advance.ser = s.ser := rfl
@[simp] theorem advance_srclk : s.advance.srclk = s.srclk := rfl
@[simp] theorem advance_rclk : s.advance.rclk = s.rclk := rfl
@[simp] theorem advance_srclrN : s.advance.srclrN = s.srclrN := rfl
@[simp] theorem advance_dig : s.advance.dig = s.dig := rfl
@[simp] theorem advance_rstN : s.advance.rstN = s.rstN := rfl
@[simp] theorem advance_srS : s.advance.srS = s.srS := rfl
@[simp] theorem advance_srQ : s.advance.srQ = s.srQ := rfl
@[simp] theorem advance_trace : s.advance.trace = s.trace := rfl
@[simp] theorem advance_urom : s.advance.urom = s.urom := rfl
@[simp] theorem advance_params : s.advance.params = s.params := rfl
@[simp] theorem advance_sched : s.advance.sched = s.sched := rfl
@[simp] theorem advance_tick : s.advance.tick = s.tick := rfl

end Sys2Proof.Machine.State
end

