-- ==== Sys2Proof/Laws/Ops.lean ====
section
/-! SUPPORT. One equation for each shared operation: the whole state it gives, so that a proof cites it instead of
unfolding the operation. -/

namespace Sys2Proof.Machine

/-- Reading `pat` gives the value the register holds (R12; log 1). -/
@[simp] theorem State.readPat_eq (s : State) : s.readPat = s.pat := rfl

/-- Writing `SER` sets the pin and traces the event; the SIPO does not react (R12). -/
theorem State.pinWrite_ser (s : State) (d : Level) :
    s.pinWrite .ser d = { s with ser := d, trace := s.trace ++ [.line .ser d] } := rfl

/-- Writing `SRCLK` 1 shifts the SIPO on a rising edge with `SRCLR_n` = 1 (R127). -/
theorem State.pinWrite_srclk_high (s : State) :
    s.pinWrite .srclk true = { s with
      srclk := true, trace := s.trace ++ [.line .srclk true],
      srS := if s.srclk = false ∧ s.srclrN = true then shiftIn s.params.srEntry s.srS s.ser else s.srS } := by
  cases h1 : s.srclk <;> cases h2 : s.srclrN <;>
    simp [pinWrite, sipoReact, setLevel, emit, setSipo, h1, h2]

/-- Writing `SRCLK` 0 has no effect on the SIPO (R127). -/
theorem State.pinWrite_srclk_low (s : State) :
    s.pinWrite .srclk false = { s with srclk := false, trace := s.trace ++ [.line .srclk false] } := by
  simp [pinWrite, sipoReact, setLevel, emit]

/-- Writing `RCLK` 1 copies the stages to the outputs on a rising edge (R129). -/
theorem State.pinWrite_rclk_high (s : State) :
    s.pinWrite .rclk true = { s with
      rclk := true, trace := s.trace ++ [.line .rclk true],
      srQ := if s.rclk = false then s.srS else s.srQ } := by
  cases h1 : s.rclk <;> simp [pinWrite, sipoReact, setLevel, emit, setSipo, h1]

/-- Writing `RCLK` 0 has no effect on the SIPO (R129). -/
theorem State.pinWrite_rclk_low (s : State) :
    s.pinWrite .rclk false = { s with rclk := false, trace := s.trace ++ [.line .rclk false] } := by
  simp [pinWrite, sipoReact, setLevel, emit]

/-- Driving `SRCLR_n` to 0 clears both SIPO vectors (R130). -/
theorem State.pinWrite_srclrN_low (s : State) :
    s.pinWrite .srclrN false = { s with
      srclrN := false, trace := s.trace ++ [.line .srclrN false], srS := 0x00#8, srQ := 0x00#8 } := rfl

/-- Driving `SRCLR_n` to 1 has no further effect (R130). -/
theorem State.pinWrite_srclrN_high (s : State) :
    s.pinWrite .srclrN true = { s with srclrN := true, trace := s.trace ++ [.line .srclrN true] } := rfl

/-- One bit into the SIPO: what the three writes of an SHB leave (R124). -/
theorem State.shiftBit_eq (s : State) (d : Level) :
    s.shiftBit d = { s with
      ser := d, srclk := false,
      srS := if s.srclk = false ∧ s.srclrN = true then shiftIn s.params.srEntry s.srS d else s.srS,
      trace := s.trace ++ [.line .ser d, .line .srclk true, .line .srclk false] } := by
  rw [shiftBit, pinWrite_ser, pinWrite_srclk_high, pinWrite_srclk_low]
  simp

/-- The pulse of `RCLK`: what the two writes of a LAT leave (R125). -/
theorem State.latchPulse_eq (s : State) :
    s.latchPulse = { s with
      rclk := false, srQ := if s.rclk = false then s.srS else s.srQ,
      trace := s.trace ++ [.line .rclk true, .line .rclk false] } := by
  rw [latchPulse, pinWrite_rclk_high, pinWrite_rclk_low]
  simp

/-- The digit lines in one event (R153). -/
theorem State.pinWriteDig_eq (s : State) (m : Nibble) :
    s.pinWriteDig m = { s with dig := m, trace := s.trace ++ [.dig m] } := rfl

/-- The poll of the left flag (R175). -/
theorem State.pollLeft_eq (s : State) :
    s.pollLeft = { s with lt := s.flagL, flagL := false, pos := if s.flagL then s.pos + 3#2 else s.pos } := by
  cases h : s.flagL <;> simp [pollLeft, takeClear, flag, setFlag, setLt, shiftLeft, setPos, h]

/-- The poll of the right flag (R176). -/
theorem State.pollRight_eq (s : State) :
    s.pollRight = { s with
      flagR := false, pos := if s.flagR = true ∧ s.lt = false then s.pos + 1#2 else s.pos } := by
  cases h : s.flagR <;> cases h' : s.lt <;>
    simp [pollRight, takeClear, flag, setFlag, shiftRight, setPos, h, h']

/-- A shift by one bit, stage by stage (R127). -/
theorem shiftIn_getLsbD (entry : SrEntry) (stages : Byte) (bit : Level) (k : Nat) (hk : k < 8) :
    (shiftIn entry stages bit).getLsbD k =
      match entry with
      | .q0 => if k = 0 then bit else stages.getLsbD (k - 1)
      | .q7 => if k = 7 then bit else stages.getLsbD (k + 1) := by
  cases entry with
  | q0 =>
    refine (BitVec.getLsbD_append (x := stages.extractLsb' 0 7) (y := BitVec.ofBool bit) (i := k)).trans ?_
    rcases k with _ | k
    · simp
    · simp; omega
  | q7 =>
    refine (BitVec.getLsbD_append (x := BitVec.ofBool bit) (y := stages.extractLsb' 1 7) (i := k)).trans ?_
    by_cases h : k = 7
    · subst h; simp
    · have : k < 7 := by omega
      simp [this, h, Nat.add_comm]

end Sys2Proof.Machine
end

