-- ==== Sys2Proof/Laws/Exec.lean ====
section
/-! SUPPORT. What an instruction that answers a next state has done, once for all of them, so that a claim about every
instruction is a case split over this list; and a run of one step more. -/

namespace Sys2Proof.Machine

/-- SHB in slot `k` always answers this state (R124). -/
theorem shiftSlot_eq (k : Nat) (s : State) :
    shiftSlot k s = .next { s with
      ser := slotLevel s.params.emitOrder s.pat k, srclk := false,
      srS := if s.srclk = false ∧ s.srclrN = true
        then shiftIn s.params.srEntry s.srS (slotLevel s.params.emitOrder s.pat k) else s.srS,
      trace := s.trace ++
        [.line .ser (slotLevel s.params.emitOrder s.pat k), .line .srclk true, .line .srclk false],
      upc := s.upc + 1#4 } := by
  simp only [shiftSlot, State.readPat, State.shiftBit_eq, State.advance, State.setUpc]

/-- The same as an inversion: what an SHB that answers a state has done. -/
theorem shiftSlot_next {k : Nat} {s t : State} (h : shiftSlot k s = .next t) :
    t = { s with
      ser := slotLevel s.params.emitOrder s.pat k, srclk := false,
      srS := if s.srclk = false ∧ s.srclrN = true
        then shiftIn s.params.srEntry s.srS (slotLevel s.params.emitOrder s.pat k) else s.srS,
      trace := s.trace ++
        [.line .ser (slotLevel s.params.emitOrder s.pat k), .line .srclk true, .line .srclk false],
      upc := s.upc + 1#4 } := by
  rw [shiftSlot_eq] at h
  cases h
  rfl

/-- Everything an instruction that answers a state can have done (R72, column rule). -/
theorem exec_next {i : Instr} {s t : State} (h : exec i s = .next t) :
    (i = .srst ∧ t = { s with
      srS := 0x00#8, srQ := 0x00#8, srclrN := true,
      trace := s.trace ++ [.line .srclrN false, .line .srclrN true], upc := s.upc + 1#4 }) ∨
    (i = .enc ∧ t = { s with pat := s.lut s.val, patWritten := true, upc := s.upc + 1#4 }) ∨
    (∃ k < 7, i.slot = some k ∧ t = { s with
      ser := slotLevel s.params.emitOrder s.pat k, srclk := false,
      srS := if s.srclk = false ∧ s.srclrN = true
        then shiftIn s.params.srEntry s.srS (slotLevel s.params.emitOrder s.pat k) else s.srS,
      trace := s.trace ++
        [.line .ser (slotLevel s.params.emitOrder s.pat k), .line .srclk true, .line .srclk false],
      upc := s.upc + 1#4 }) ∨
    (i = .pll ∧ t = { s with
      lt := s.flagL, flagL := false, pos := if s.flagL then s.pos + 3#2 else s.pos,
      upc := if s.flagL = true ∧ s.params.rightPolicy = .defer then 0xB#4 else s.upc + 1#4 }) ∨
    (i = .plr ∧ t = { s with
      flagR := false, pos := if s.flagR = true ∧ s.lt = false then s.pos + 1#2 else s.pos, upc := s.upc + 1#4 }) ∨
    (i = .drv ∧ t = { s with
      dig := onehot4 s.pos, trace := s.trace ++ [.dig (onehot4 s.pos)], upc := s.upc + 1#4 }) ∨
    (i = .lat ∧ t = { s with
      srQ := if s.rclk = false then s.srS else s.srQ, rclk := false,
      trace := s.trace ++ [.line .rclk true, .line .rclk false], upc := s.upc + 1#4 }) ∨
    (i = .dly ∧ t = { s with upc := s.upc + 1#4 }) ∨
    (i = .inc ∧ t = { s with val := s.val + 1#4, upc := 0x1#4 }) ∨
    (i = .ntfL ∧ t = { s with flagL := true }) ∨
    (i = .ntfR ∧ t = { s with flagR := true }) := by
  cases i with
  | srst =>
    simp only [exec, execSrst, State.pinWrite_srclrN_low, State.pinWrite_srclrN_high] at h
    cases h; simp [State.advance, State.setUpc]
  | enc => cases h; exact .inr (.inl ⟨rfl, rfl⟩)
  | shb0 => exact .inr (.inr (.inl ⟨0, by decide, rfl, shiftSlot_next h⟩))
  | shb1 => exact .inr (.inr (.inl ⟨1, by decide, rfl, shiftSlot_next h⟩))
  | shb2 => exact .inr (.inr (.inl ⟨2, by decide, rfl, shiftSlot_next h⟩))
  | shb3 => exact .inr (.inr (.inl ⟨3, by decide, rfl, shiftSlot_next h⟩))
  | shb4 => exact .inr (.inr (.inl ⟨4, by decide, rfl, shiftSlot_next h⟩))
  | shb5 => exact .inr (.inr (.inl ⟨5, by decide, rfl, shiftSlot_next h⟩))
  | shb6 => exact .inr (.inr (.inl ⟨6, by decide, rfl, shiftSlot_next h⟩))
  | pll =>
    simp only [exec, execPll, State.pollLeft_eq, State.afterPollLeft] at h
    cases h
    by_cases hl : s.flagL = true <;> by_cases hp : s.params.rightPolicy = .defer <;>
      simp [hl, hp, State.setUpc, State.advance]
  | plr =>
    simp only [exec, execPlr, State.pollRight_eq] at h
    cases h; simp [State.advance, State.setUpc]
  | drv => cases h; simp [State.advance, State.setUpc, State.pinWriteDig_eq, State.current]
  | lat =>
    simp only [exec, execLat, State.latchPulse_eq] at h
    cases h; simp [State.advance, State.setUpc]
  | dly => cases h; simp [State.advance, State.setUpc, State.wait]
  | inc => cases h; simp [State.setUpc, State.setVal]
  | ntfL => cases h; simp [State.notify, State.setFlag]
  | ntfR => cases h; simp [State.notify, State.setFlag]

/-- A run whose first step answers a state goes on from it. -/
theorem run_succ {k : Nat} {s t : State} (h : step s = .next t) :
    Sys2Proof.core.run (k + 1) s = Sys2Proof.core.run k t := by
  have h : Sys2Proof.core.step s = .next t := h
  simp only [Host.Core.run, h]

end Sys2Proof.Machine
end

