-- ==== Sys2Proof/Laws/Memory.lean ====
section
/-! SUPPORT. UROM as a list of cells in canonical form: what a read gives after a write, that a write keeps the form, and
that two canonical lists that read alike are equal. -/

namespace Sys2Proof.Machine.Memory

theorem lookup_erase_other {a b : Nat} (h : a ≠ b) : ∀ m, lookup (erase m b) a = lookup m a
  | [] => rfl
  | (k, c) :: m => by
    by_cases hk : k = b
    · subst hk; simp [erase, lookup, Ne.symm h]
    · rw [erase, if_neg hk, lookup, lookup, lookup_erase_other h m]

theorem lookup_insert_same (a : Nat) (b : Byte) : ∀ m, lookup (insert m a b) a = some b
  | [] => by simp [insert, lookup]
  | (k, c) :: m => by
    by_cases h1 : a < k
    · simp [insert, h1, lookup]
    · by_cases h2 : a = k
      · simp [insert, h2, lookup]
      · simp [insert, h1, h2, Ne.symm h2, lookup, lookup_insert_same a b m]

theorem lookup_insert_other {a x : Nat} (b : Byte) (h : x ≠ a) : ∀ m, lookup (insert m a b) x = lookup m x
  | [] => by simp [insert, lookup, Ne.symm h]
  | (k, c) :: m => by
    by_cases h1 : a < k
    · simp [insert, h1, lookup, Ne.symm h]
    · by_cases h2 : a = k
      · subst h2; simp [insert, lookup, Ne.symm h]
      · rw [insert, if_neg h1, if_neg h2, lookup, lookup, lookup_insert_other b h m]

/-- Nothing below the bound is listed. -/
theorem lookup_of_risingFrom {a : Nat} : ∀ {m lo}, risingFrom lo m = true → a < lo → lookup m a = none
  | [], _, _, _ => rfl
  | (k, c) :: m, lo, h, ha => by
    simp only [risingFrom, Bool.and_eq_true, decide_eq_true_eq] at h
    have hk : k ≠ a := by omega
    simp [lookup, hk, lookup_of_risingFrom h.2 (show a < k + 1 by omega)]

theorem risingFrom_mono : ∀ {m lo hi}, risingFrom hi m = true → lo ≤ hi → risingFrom lo m = true
  | [], _, _, _, _ => rfl
  | (k, c) :: m, lo, hi, h, hle => by
    simp only [risingFrom, Bool.and_eq_true, decide_eq_true_eq] at h ⊢
    exact ⟨by omega, h.2⟩

theorem lookup_erase_same {a : Nat} : ∀ {m lo}, risingFrom lo m = true → lookup (erase m a) a = none
  | [], _, _ => rfl
  | (k, c) :: m, lo, h => by
    simp only [risingFrom, Bool.and_eq_true, decide_eq_true_eq] at h
    by_cases hk : k = a
    · subst hk; simpa [erase] using lookup_of_risingFrom h.2 (Nat.lt_succ_self _)
    · simp [erase, hk, lookup, lookup_erase_same h.2]

theorem risingFrom_erase (a : Nat) : ∀ {m lo}, risingFrom lo m = true → risingFrom lo (erase m a) = true
  | [], _, _ => rfl
  | (k, c) :: m, lo, h => by
    have h' := h
    simp only [risingFrom, Bool.and_eq_true, decide_eq_true_eq] at h
    by_cases hk : k = a
    · simpa [erase, hk] using risingFrom_mono h.2 (by omega)
    · simpa [erase, hk, risingFrom, h.1] using risingFrom_erase a h.2

theorem risingFrom_insert {a : Nat} (b : Byte) :
    ∀ {m lo}, risingFrom lo m = true → lo ≤ a → risingFrom lo (insert m a b) = true
  | [], _, _, h => by simpa [insert, risingFrom] using h
  | (k, c) :: m, lo, h, ha => by
    simp only [risingFrom, Bool.and_eq_true, decide_eq_true_eq] at h
    by_cases h1 : a < k
    · simp only [insert, h1, if_true, risingFrom, Bool.and_eq_true, decide_eq_true_eq]
      exact ⟨ha, by omega, h.2⟩
    · by_cases h2 : a = k
      · subst h2; simpa [insert, risingFrom, ha] using h.2
      · simp only [insert, h1, h2, if_false, risingFrom, Bool.and_eq_true, decide_eq_true_eq]
        exact ⟨h.1, risingFrom_insert b h.2 (by omega)⟩

/-- A cell of `erase` or of `insert` was a cell before, or is the one set. -/
theorem mem_erase {a : Nat} {x : Host.Cell} : ∀ {m}, x ∈ erase m a → x ∈ m
  | [], h => h
  | (k, c) :: m, h => by
    by_cases hk : k = a
    · rw [erase, if_pos hk] at h; exact List.mem_cons_of_mem _ h
    · rw [erase, if_neg hk] at h
      rcases List.mem_cons.1 h with h | h
      · exact h ▸ List.mem_cons_self
      · exact List.mem_cons_of_mem _ (mem_erase h)

theorem mem_insert {a : Nat} {b : Byte} {x : Host.Cell} : ∀ {m}, x ∈ insert m a b → x = (a, b) ∨ x ∈ m
  | [], h => by simpa [insert] using h
  | (k, c) :: m, h => by
    by_cases h1 : a < k
    · simpa [insert, h1] using h
    · by_cases h2 : a = k
      · have : x = (a, b) ∨ x ∈ m := by simpa [insert, h1, h2] using h
        exact this.imp id (List.mem_cons_of_mem _)
      · have : x = (k, c) ∨ x ∈ insert m a b := by simpa [insert, h1, h2] using h
        rcases this with h | h
        · exact .inr (h ▸ List.mem_cons_self)
        · exact (mem_insert h).imp id (List.mem_cons_of_mem _)

/-- Reading the address just written gives the byte written, wherever a word can stand. -/
theorem read_write_same {m : List Host.Cell} {a : Nat} (b : Byte) (hm : wf m = true) (ha : a < 15) :
    read (write m a b) a = some b := by
  obtain ⟨blank, hb⟩ : ∃ blank, uromBlank a = some blank := by
    simp [uromBlank, microprogram, ha]
  have hrise : risingFrom 0 m = true := by
    simp only [wf, Bool.and_eq_true] at hm; exact hm.1
  by_cases h : b = blank
  · simp [read, write, hb, h, lookup_erase_same hrise]
  · simp [read, write, hb, h, lookup_insert_same]

/-- A write leaves every other address as it read. -/
theorem read_write_other (m : List Host.Cell) {a x : Nat} (b : Byte) (h : x ≠ a) :
    read (write m a b) x = read m x := by
  unfold write
  split
  · rfl
  · split <;> simp [read, lookup_erase_other h, lookup_insert_other b h]

/-- A write keeps the canonical form. -/
theorem wf_write {m : List Host.Cell} (a : Nat) (b : Byte) (hm : wf m = true) : wf (write m a b) = true := by
  simp only [wf, Bool.and_eq_true, List.all_eq_true] at hm ⊢
  unfold write
  split
  · exact hm
  · rename_i blank hb
    split
    · exact ⟨risingFrom_erase a hm.1, fun x hx => hm.2 x (mem_erase hx)⟩
    · rename_i hne
      refine ⟨risingFrom_insert b hm.1 (Nat.zero_le a), fun x hx => ?_⟩
      rcases mem_insert hx with rfl | hx
      · simp [hb, hne]
      · exact hm.2 x hx

/-- The memory of the reset state has the canonical form. -/
theorem wf_reset : wf State.reset.urom = true := rfl

/-- UROM holds no micro-op at 0xF, whatever its cells. -/
@[simp] theorem read_fifteen (m : List Host.Cell) : read m 15 = none := rfl

/-- With no cell listed, UROM reads as the microprogram. -/
theorem read_nil (a : Nat) : read [] a = microprogram[a]? := by
  cases h : microprogram[a]? <;> simp [read, uromBlank, h, lookup]

/-- In the canonical form each listed cell is what its address reads as, and differs from what it would read as
unlisted. -/
theorem lookup_ne_blank {m : List Host.Cell} {a : Nat} {b : Byte} (hm : wf m = true) (h : lookup m a = some b) :
    ∃ blank, uromBlank a = some blank ∧ b ≠ blank := by
  simp only [wf, Bool.and_eq_true, List.all_eq_true] at hm
  have hin : ∀ {m : List Host.Cell}, lookup m a = some b → (a, b) ∈ m := by
    intro m
    induction m with
    | nil => intro h; cases h
    | cons c m ih =>
      obtain ⟨k, c⟩ := c
      intro h
      by_cases hk : k = a
      · subst hk
        have : c = b := by simpa [lookup] using h
        exact this ▸ List.mem_cons_self
      · exact List.mem_cons_of_mem _ (ih (by simpa [lookup, hk] using h))
  have := hm.2 _ (hin h)
  revert this
  cases uromBlank a with
  | none => intro h; cases h
  | some blank => intro h; exact ⟨blank, rfl, by simpa using h⟩

/-- Two rising lists that list the same bytes are equal. -/
theorem eq_of_lookup_eq : ∀ {m n : List Host.Cell} {lo},
    risingFrom lo m = true → risingFrom lo n = true → (∀ a, lookup m a = lookup n a) → m = n
  | [], [], _, _, _, _ => rfl
  | [], (k, c) :: n, _, _, _, h => by simpa [lookup] using h k
  | (k, c) :: m, [], _, _, _, h => by simpa [lookup] using h k
  | (k, c) :: m, (l, d) :: n, lo, hm, hn, h => by
    simp only [risingFrom, Bool.and_eq_true, decide_eq_true_eq] at hm hn
    have hkl : k = l := by
      rcases Nat.lt_trichotomy k l with hlt | heq | hlt
      · have := h k
        rw [show lookup ((l, d) :: n) k = none by
          have hl : l ≠ k := by omega
          simp [lookup, hl, lookup_of_risingFrom hn.2 (show k < l + 1 by omega)]] at this
        simp [lookup] at this
      · exact heq
      · have := h l
        rw [show lookup ((k, c) :: m) l = none by
          have hk : k ≠ l := by omega
          simp [lookup, hk, lookup_of_risingFrom hm.2 (show l < k + 1 by omega)]] at this
        simp [lookup] at this
    subst hkl
    have hcd : c = d := by simpa [lookup] using h k
    subst hcd
    have : m = n := eq_of_lookup_eq hm.2 hn.2 fun a => by
      by_cases ha : k = a
      · subst ha
        rw [lookup_of_risingFrom hm.2 (Nat.lt_succ_self _), lookup_of_risingFrom hn.2 (Nat.lt_succ_self _)]
      · simpa [lookup, ha] using h a
    rw [this]

/-- Two memories in canonical form that read alike at every address are the same list. -/
theorem wf_ext {m n : List Host.Cell} (hm : wf m = true) (hn : wf n = true) (h : ∀ a, read m a = read n a) :
    m = n := by
  have rise : ∀ {x}, wf x = true → risingFrom 0 x = true := fun hx => by
    simp only [wf, Bool.and_eq_true] at hx; exact hx.1
  refine eq_of_lookup_eq (rise hm) (rise hn) fun a => ?_
  have hr := h a
  have hm' := @lookup_ne_blank m a
  have hn' := @lookup_ne_blank n a
  cases hb : uromBlank a with
  | none =>
    cases h1 : lookup m a with
    | some b => obtain ⟨blank, h2, _⟩ := hm' hm h1; simp [hb] at h2
    | none =>
      cases h2 : lookup n a with
      | some b => obtain ⟨blank, h3, _⟩ := hn' hn h2; simp [hb] at h3
      | none => rfl
  | some blank =>
    cases h1 : lookup m a with
    | none =>
      cases h2 : lookup n a with
      | none => rfl
      | some c =>
        obtain ⟨_, h3, h4⟩ := hn' hn h2
        rw [hb] at h3; cases h3
        simp [read, hb, h1, h2] at hr; exact absurd hr.symm h4
    | some b =>
      obtain ⟨_, h3, h4⟩ := hm' hm h1
      rw [hb] at h3; cases h3
      cases h2 : lookup n a with
      | none => simp [read, hb, h1, h2] at hr; exact absurd hr h4
      | some c => simp [read, hb, h1, h2] at hr; rw [hr]

end Sys2Proof.Machine.Memory
end

