-- ==== Sys2Proof/Laws/PerInstr.lean ====
section
/-! SUPPORT. A law of every instruction as syntax: its fields are those of a valid word of R74 and its slot exists. -/

namespace Sys2Proof.Laws.FieldsFit

/-- The fields of an instruction's own word pass every check of R74, and its shift slot is one of the seven (R6). -/
def Statement (i : Instr) : Prop := (Fields.ofWord (encode i)).wellFormed = true ∧ i.wellFormed = true

theorem srst : Statement .srst := ⟨rfl, rfl⟩

theorem enc : Statement .enc := ⟨rfl, rfl⟩

theorem shb0 : Statement .shb0 := ⟨rfl, rfl⟩

theorem shb1 : Statement .shb1 := ⟨rfl, rfl⟩

theorem shb2 : Statement .shb2 := ⟨rfl, rfl⟩

theorem shb3 : Statement .shb3 := ⟨rfl, rfl⟩

theorem shb4 : Statement .shb4 := ⟨rfl, rfl⟩

theorem shb5 : Statement .shb5 := ⟨rfl, rfl⟩

theorem shb6 : Statement .shb6 := ⟨rfl, rfl⟩

theorem pll : Statement .pll := ⟨rfl, rfl⟩

theorem plr : Statement .plr := ⟨rfl, rfl⟩

theorem drv : Statement .drv := ⟨rfl, rfl⟩

theorem lat : Statement .lat := ⟨rfl, rfl⟩

theorem dly : Statement .dly := ⟨rfl, rfl⟩

theorem inc : Statement .inc := ⟨rfl, rfl⟩

theorem ntfL : Statement .ntfL := ⟨rfl, rfl⟩

theorem ntfR : Statement .ntfR := ⟨rfl, rfl⟩

end Sys2Proof.Laws.FieldsFit
end

