-- ==== Sys2Proof/Laws/Step.lean ====
section
/-! SUPPORT. What a turn and a step can do: each answers a next state in one of the ways listed here, and in no other; and
what SCAN executes at each address of the fixed program. -/

namespace Sys2Proof.Machine

/-- A SCAN turn that answers a state either changed nothing, in reset, or executed the micro-op at `upc` (R191). -/
theorem scanTurn_next {s t : State} (h : scanTurn s = .next t) :
    (s.rstN = false ∧ t = s) ∨
    (s.rstN = true ∧ ∃ w i, s.fetch = some w ∧ decodeWord w = .ok i ∧ i.isNotify = false ∧ exec i s = .next t) := by
  unfold scanTurn at h
  split at h
  · rename_i hr
    refine .inr ⟨hr, ?_⟩
    split at h
    · rename_i w hw
      unfold runWord at h
      split at h
      · rename_i i hi
        split at h
        · cases h
        · rename_i hn
          exact ⟨w, i, hw, hi, by simpa using hn, h⟩
      · cases h
    · cases h
  · rename_i hr
    cases h
    exact .inl ⟨by simpa using hr, rfl⟩

/-- An edge agent's turn that answers a state either changed nothing, in reset, or set its flag (R171, R181). -/
theorem edgeTurn_next {w : Button} {s t : State} (h : edgeTurn w s = .next t) :
    (s.rstN = false ∧ t = s) ∨ (s.rstN = true ∧ t = s.notify w) := by
  unfold edgeTurn at h
  split at h
  · rename_i hr
    cases w <;> cases h <;> exact .inr ⟨hr, rfl⟩
  · rename_i hr
    cases h
    exact .inl ⟨by simpa using hr, rfl⟩

/-- A turn that answers a state is SCAN's micro-op, an edge, a reset input's change, or nothing (R9, R250). -/
theorem takeTurn_next {turn : Turn} {s t : State} (h : takeTurn turn s = .next t) :
    (turn = .scan ∧ s.rstN = true ∧
      ∃ w i, s.fetch = some w ∧ decodeWord w = .ok i ∧ i.isNotify = false ∧ exec i s = .next t) ∨
    (s.rstN = true ∧ ∃ w, (turn = .edgeL ∧ w = .left ∨ turn = .edgeR ∧ w = .right) ∧ t = s.notify w) ∨
    (turn = .resetLow ∧ t = s.assertReset) ∨
    (turn = .resetHigh ∧ s.rstN = false ∧ t = { s.assertReset with rstN := true }) ∨
    (turn ≠ .resetLow ∧ t = s) := by
  cases turn with
  | scan =>
    rcases scanTurn_next h with ⟨_, rfl⟩ | ⟨hr, hx⟩
    · exact .inr (.inr (.inr (.inr ⟨nofun, rfl⟩)))
    · exact .inl ⟨rfl, hr, hx⟩
  | edgeL =>
    rcases edgeTurn_next h with ⟨_, rfl⟩ | ⟨hr, ht⟩
    · exact .inr (.inr (.inr (.inr ⟨nofun, rfl⟩)))
    · exact .inr (.inl ⟨hr, .left, .inl ⟨rfl, rfl⟩, ht⟩)
  | edgeR =>
    rcases edgeTurn_next h with ⟨_, rfl⟩ | ⟨hr, ht⟩
    · exact .inr (.inr (.inr (.inr ⟨nofun, rfl⟩)))
    · exact .inr (.inl ⟨hr, .right, .inr ⟨rfl, rfl⟩, ht⟩)
  | resetLow => cases h; exact .inr (.inr (.inl ⟨rfl, rfl⟩))
  | resetHigh =>
    cases h
    unfold State.releaseReset
    split
    · exact .inr (.inr (.inr (.inr ⟨nofun, rfl⟩)))
    · rename_i hr
      exact .inr (.inr (.inr (.inl ⟨rfl, by simpa using hr, rfl⟩)))

/-- Taking a turn from the script or from the free turns changes only the script and the count of free turns. -/
theorem nextTurn_state (s : State) :
    s.nextTurn.2 = { s with sched := s.nextTurn.2.sched, tick := s.nextTurn.2.tick } := by
  unfold State.nextTurn
  split <;> rfl

/-- What SCAN executes at each address of the fixed program (R192). -/
theorem scanTurn_fixed {s : State} (hp : s.urom = []) (hr : s.rstN = true) :
    scanTurn s = match s.upc.toNat with
      | 0 => exec .srst s | 1 => exec .enc s
      | 2 => exec .shb0 s | 3 => exec .shb1 s | 4 => exec .shb2 s | 5 => exec .shb3 s
      | 6 => exec .shb4 s | 7 => exec .shb5 s | 8 => exec .shb6 s
      | 9 => exec .pll s | 10 => exec .plr s | 11 => exec .drv s | 12 => exec .lat s
      | 13 => exec .dly s | 14 => exec .inc s
      | _ => .fault .noMicroOp := by
  unfold scanTurn State.fetch
  rw [hp, hr, Memory.read_nil]
  have h : s.upc.toNat < 16 := s.upc.isLt
  generalize s.upc.toNat = n at h
  have : n = 0 ∨ n = 1 ∨ n = 2 ∨ n = 3 ∨ n = 4 ∨ n = 5 ∨ n = 6 ∨ n = 7 ∨ n = 8 ∨ n = 9 ∨ n = 10 ∨ n = 11 ∨
      n = 12 ∨ n = 13 ∨ n = 14 ∨ n = 15 := by omega
  rcases this with rfl | rfl | rfl | rfl | rfl | rfl | rfl | rfl | rfl | rfl | rfl | rfl | rfl | rfl | rfl | rfl <;>
    rfl

end Sys2Proof.Machine
end

