-- ==== Sys2Proof/Tests/Slice0.lean ====
section
/-! SUPPORT. Tests with expected results from the spec's own vectors (95_test_vectors.md, cited as L<n>), ill-formed words,
and for each statement with hypotheses a witness that meets them all together. -/

namespace Sys2Proof.Tests

open Sys2Proof.Machine

/-- A field of the state an outcome answers, and none where it stops. -/
def got {α : Type} (o : Host.Outcome State Fault Refusal) (f : State → α) : Option α :=
  match o with
  | .next t => some (f t)
  | .fault _ => none
  | .refused _ => none

/-- Reset, then a present `upc`. -/
def at' (u : Nibble) : State := { State.reset with upc := u }

/-- A state ready to shift one bit of a pattern, under given parameters. -/
def ready (pattern : Pattern) (stages : Byte) (emit : EmitOrder) (entry : SrEntry) : State :=
  { State.reset with
    pat := pattern, patWritten := true, srS := stages,
    params := { Params.default with emitOrder := emit, srEntry := entry } }

/-- A state at PLL with given flags and policy, at position 1 (L2.7). -/
def polling (l r : Level) (policy : RightPolicy) : State :=
  { State.reset with
    upc := 0x9#4, pos := 1#2, flagL := l, flagR := r, params := { Params.default with rightPolicy := policy } }

/-- The events of frame 0 (L3.1). -/
def frameZeroTrace : List PinEvent :=
  [.line .srclrN false, .line .srclrN true, .line .ser true, .line .srclk true, .line .srclk false] ++
  (List.replicate 6 [PinEvent.line .ser false, .line .srclk true, .line .srclk false]).flatten ++
  [.dig 0x1#4, .line .rclk true, .line .rclk false]

/-- Frame 0 after its LAT (L3.1): the glyph 0 stands on Digit1. -/
def shown : State :=
  { State.reset with
    upc := 0xD#4, pat := 0x7E#7, patWritten := true, srS := 0x40#8, srQ := 0x40#8, dig := 0x1#4,
    trace := frameZeroTrace }

/-- `shown` with other outputs, another `SRCLK` and other digit lines. -/
def spoilt (outputs : Byte) (clock : Level) (lines : Nibble) : State :=
  { shown with srQ := outputs, srclk := clock, dig := lines }

/-- The machine while `rst_n` is held at 0. -/
def held : State := State.reset.assertReset

/-! ### Decoding: each family's words, bit by bit from R70 to R73 -/

theorem test_decode_serializer_words :
    decodeWord 0b00010000#8 = .ok .srst ∧ decodeWord 0b01110000#8 = .ok .lat ∧
    decodeWord 0b00110000#8 = .ok .shb0 ∧ decodeWord 0b00110001#8 = .ok .shb1 ∧
    decodeWord 0b00110010#8 = .ok .shb2 ∧ decodeWord 0b00110011#8 = .ok .shb3 ∧
    decodeWord 0b00110100#8 = .ok .shb4 ∧ decodeWord 0b00110101#8 = .ok .shb5 ∧
    decodeWord 0b00110110#8 = .ok .shb6 := ⟨rfl, rfl, rfl, rfl, rfl, rfl, rfl, rfl, rfl⟩

theorem test_decode_encoder_and_selector_words :
    decodeWord 0b00100000#8 = .ok .enc ∧ decodeWord 0b01100000#8 = .ok .drv := ⟨rfl, rfl⟩

theorem test_decode_button_words :
    decodeWord 0b01000000#8 = .ok .pll ∧ decodeWord 0b01010000#8 = .ok .plr ∧
    decodeWord 0b10100000#8 = .ok .ntfL ∧ decodeWord 0b10100001#8 = .ok .ntfR := ⟨rfl, rfl, rfl, rfl⟩

theorem test_decode_scan_words :
    decodeWord 0b10000000#8 = .ok .dly ∧ decodeWord 0b10010000#8 = .ok .inc := ⟨rfl, rfl⟩

/-- L2.9: 00, B0, C5 and FF have no operation; 11, 2F, 41, 9F, 38, 3F, A2 and A3 set an unused bit; 37 is SHB 7. -/
theorem test_decode_rejects_by_name :
    decodeWord 0x00#8 = .error .reservedOp ∧ decodeWord 0xB0#8 = .error .reservedOp ∧
    decodeWord 0xC5#8 = .error .reservedOp ∧ decodeWord 0xFF#8 = .error .reservedOp ∧
    decodeWord 0x11#8 = .error .unusedArgBit ∧ decodeWord 0x2F#8 = .error .unusedArgBit ∧
    decodeWord 0x41#8 = .error .unusedArgBit ∧ decodeWord 0x9F#8 = .error .unusedArgBit ∧
    decodeWord 0x38#8 = .error .unusedArgBit ∧ decodeWord 0x3F#8 = .error .unusedArgBit ∧
    decodeWord 0xA2#8 = .error .unusedArgBit ∧ decodeWord 0xA3#8 = .error .unusedArgBit ∧
    decodeWord 0x37#8 = .error .noEighthSlot :=
  ⟨rfl, rfl, rfl, rfl, rfl, rfl, rfl, rfl, rfl, rfl, rfl, rfl, rfl⟩

/-- R76: one word an instruction; no bytes, no instruction. -/
theorem test_decode_consumes_one_byte :
    decode [0x60#8, 0x00#8] = .ok (.drv, [0x00#8]) ∧ decode [] = .error .noWord := ⟨rfl, rfl⟩

/-- The table's numeral is the word; a wider one with a bit above the word is no row. -/
theorem test_decode_table_word :
    decodeTableWord 8 0xA1 = some .ntfR ∧ decodeTableWord 8 0x37 = none ∧ decodeTableWord 16 0x110 = none := by
  decide

/-! ### Well-formedness: an ill-formed term for each check -/

theorem test_wf_refuses_unassigned_op :
    Fields.opAssigned ⟨0x0#4, 0x0#4⟩ = false ∧ Fields.opAssigned ⟨0xB#4, 0x0#4⟩ = false ∧
    Fields.opAssigned ⟨0xA#4, 0x0#4⟩ = true := by decide

theorem test_wf_refuses_unused_arg_bit :
    Fields.unusedArgZero ⟨0x2#4, 0x1#4⟩ = false ∧ Fields.unusedArgZero ⟨0x3#4, 0x8#4⟩ = false ∧
    Fields.unusedArgZero ⟨0xA#4, 0x2#4⟩ = false ∧ Fields.unusedArgZero ⟨0xA#4, 0x1#4⟩ = true := by decide

theorem test_wf_refuses_eighth_slot :
    Fields.slotExists ⟨0x3#4, 0x7#4⟩ = false ∧ Fields.slotExists ⟨0x3#4, 0x6#4⟩ = true := by decide

theorem test_wf_is_all_three_checks :
    Fields.wellFormed ⟨0x0#4, 0x0#4⟩ = false ∧ Fields.wellFormed ⟨0x2#4, 0x1#4⟩ = false ∧
    Fields.wellFormed ⟨0x3#4, 0x7#4⟩ = false ∧ Fields.wellFormed ⟨0x3#4, 0x6#4⟩ = true := by decide

/-! ### Micro-operations -/

/-- L2.5: power-up vectors 5A and C3 are cleared, two events, `upc` 1. -/
theorem test_srst_clears :
    got (exec .srst (State.resetWith 0x5A#8 0xC3#8)) (fun t => (t.srS, t.srQ, t.upc, t.trace)) =
      some (0x00#8, 0x00#8, 0x1#4, [.line .srclrN false, .line .srclrN true]) := by decide

/-- L2.1: row F is 47, row 0 is 7E. -/
theorem test_enc_rows :
    got (exec .enc { State.reset with val := 0xF#4 }) (·.pat) = some 0x47#7 ∧
    got (exec .enc State.reset) (·.pat) = some 0x7E#7 := by decide

/-- L2.2, Q0 entry: 55 and d = 1 give AB; pattern bit 0 is 0, so its complement is sent. -/
theorem test_shb0_q0 :
    got (exec .shb0 (ready 0x7E#7 0x55#8 .idx0First .q0)) (fun t => (t.srS, t.ser)) = some (0xAB#8, true) := by decide

/-- L2.2, Q7 entry: 01 and d = 0 give 00, bit 0 falls off; `IDX6_FIRST` sends bit 6 in slot 0. -/
theorem test_shb0_q7_idx6 :
    got (exec .shb0 (ready 0x40#7 0x01#8 .idx6First .q7)) (fun t => (t.srS, t.ser)) = some (0x00#8, false) := by decide

/-- L2.2: 80 and d = 0 give 00 with Q0 entry, bit 7 falls off. -/
theorem test_shb1_drops_top :
    got (exec .shb1 (ready 0x02#7 0x80#8 .idx0First .q0)) (·.srS) = some 0x00#8 := by decide

/-- L2.2: 80 and d = 0 give 40 with Q7 entry. -/
theorem test_shb2_q7 :
    got (exec .shb2 (ready 0x04#7 0x80#8 .idx0First .q7)) (·.srS) = some 0x40#8 := by decide

/-- R123: slot 3 is pattern bit 3 in both orders. -/
theorem test_shb3_middle_bit :
    got (exec .shb3 (ready 0x77#7 0x00#8 .idx0First .q0)) (·.ser) = some true ∧
    got (exec .shb3 (ready 0x77#7 0x00#8 .idx6First .q0)) (·.ser) = some true := by decide

/-- R123: slot 4 is pattern bit 4, and bit 2 under `IDX6_FIRST`. -/
theorem test_shb4_orders :
    got (exec .shb4 (ready 0x10#7 0x00#8 .idx0First .q0)) (·.ser) = some false ∧
    got (exec .shb4 (ready 0x10#7 0x00#8 .idx6First .q0)) (·.ser) = some true := by decide

/-- L2.2: FF and d = 0 give FE with Q0 entry. -/
theorem test_shb5_shifts_zero_in :
    got (exec .shb5 (ready 0x20#7 0xFF#8 .idx0First .q0)) (·.srS) = some 0xFE#8 := by decide

/-- L2.2: three events, `SR.Q` unchanged, SHB 6 at @8 leads to @9. -/
theorem test_shb6_events :
    got (exec .shb6 { ready 0x40#7 0x00#8 .idx0First .q0 with upc := 0x8#4, srQ := 0x24#8 })
      (fun t => (t.trace, t.srQ, t.upc)) =
      some ([.line .ser false, .line .srclk true, .line .srclk false], 0x24#8, 0x9#4) := by decide

/-- R124 from reset: SHB runs; that it reads the unwritten `pat` (R13) is said beside the step. -/
theorem test_shb0_runs_from_reset :
    got (exec .shb0 State.reset) (fun t => (t.upc, t.srclk, t.trace.length)) = some (0x1#4, false, 3) ∧
    State.reset.readsUnwritten .shb0 = true ∧ State.reset.readsUnwritten .enc = false := by decide

/-- L2.5: `SR.S` = 79, `SR.Q` = 40 before, both 79 after. -/
theorem test_lat_copies :
    got (exec .lat { State.reset with srS := 0x79#8, srQ := 0x40#8 }) (fun t => (t.srS, t.srQ)) =
      some (0x79#8, 0x79#8) := by decide

/-- L2.6: position 3 drives 1000, position 0 drives 0001. -/
theorem test_drv_masks :
    got (exec .drv { State.reset with pos := 3#2 }) (fun t => (t.dig, t.trace)) = some (0x8#4, [.dig 0x8#4]) ∧
    got (exec .drv State.reset) (·.dig) = some 0x1#4 := by decide

/-- L2.7: left wins, position 1 to 0; `upc` is B under DEFER and A under DISCARD. -/
theorem test_pll_left_taken :
    got (exec .pll (polling true true .defer)) (fun t => (t.lt, t.pos, t.flagL, t.flagR, t.upc)) =
      some (true, 0#2, false, true, 0xB#4) ∧
    got (exec .pll (polling true true .discard)) (·.upc) = some 0xA#4 := by decide

/-- L1.3: left from Digit1 wraps to Digit4. -/
theorem test_pll_wraps :
    got (exec .pll { polling true false .defer with pos := 0#2 }) (·.pos) = some 3#2 := by decide

/-- L1.3: right from Digit4 wraps to Digit1. -/
theorem test_plr_wraps :
    got (exec .plr { polling false true .defer with pos := 3#2 }) (fun t => (t.pos, t.flagR)) =
      some (0#2, false) := by decide

/-- R176: with left taken, the right flag is cleared and the position stays. -/
theorem test_plr_after_left :
    got (exec .plr { polling false true .discard with lt := true }) (fun t => (t.pos, t.flagR)) =
      some (1#2, false) := by decide

/-- L2.8: DLY @D goes to E and emits nothing. -/
theorem test_dly_goes_on : got (exec .dly (at' 0xD#4)) (fun t => (t.upc, t.trace)) = some (0xE#4, []) := by decide

/-- L2.8: INC of 5 is 6 and INC of F wraps to 0, both to @1. -/
theorem test_inc_wraps :
    got (exec .inc { at' 0xE#4 with val := 0x5#4 }) (fun t => (t.val, t.upc)) = some (0x6#4, 0x1#4) ∧
    got (exec .inc { at' 0xE#4 with val := 0xF#4 }) (·.val) = some 0x0#4 := by decide

/-- R171: NTF L sets the left flag, not the right one, and leaves `upc`. -/
theorem test_ntfL_own_flag :
    got (exec .ntfL (at' 0xA#4)) (fun t => (t.flagL, t.flagR, t.upc)) = some (true, false, 0xA#4) := by decide

/-- R171: NTF R sets the right flag, not the left one. -/
theorem test_ntfR_own_flag : got (exec .ntfR State.reset) (fun t => (t.flagL, t.flagR)) = some (false, true) := by
  decide

/-- R131: the output wired to segment a, pattern bit 6, in each configuration. -/
theorem test_wiring_of_each_configuration :
    (glyphCorrectWire .idx0First .q0).a = 0#3 ∧ (glyphCorrectWire .idx0First .q7).a = 7#3 ∧
    (glyphCorrectWire .idx6First .q0).a = 6#3 ∧ (glyphCorrectWire .idx6First .q7).a = 1#3 := by decide

/-! ### Placing a word and stepping -/

/-- A placed word is run by the very next step; an NTF by its edge agent. -/
theorem test_placed_word_runs :
    got (step (State.reset.withFetchWord 8 0x90)) (fun t => (t.val, t.upc)) = some (0x1#4, 0x1#4) ∧
    got (step (State.reset.withFetchWord 8 0xA1)) (·.flagR) = some true ∧
    got (step ((at' 0xF#4).withFetchWord 8 0x60)) (·.upc) = some 0x1#4 := by decide

/-- L2.9: SCAN refuses word 37 and an NTF word, each by name. -/
theorem test_scan_refuses :
    step { State.reset with urom := [(0, 0x37#8)], sched := [.scan] } = .refused (.invalidWord 0x37#8) ∧
    step { State.reset with urom := [(0, 0xA0#8)], sched := [.scan] } = .refused .notScanOp := ⟨rfl, rfl⟩

/-! ### Witnesses: states and operands that meet a statement's hypotheses together -/

theorem test_witness_RejectsExactlyInvalidWords :
    ∃ (s : State) (w : Byte) (e : Reject), s.rstN = true ∧ s.fetch = some w ∧ decodeWord w = .error e :=
  ⟨{ State.reset with urom := [(0, 0x37#8)] }, 0x37#8, .noEighthSlot, rfl, rfl, rfl⟩

theorem test_witness_UromHoldsMicroprogram :
    Memory.read [] 0 = some 0x10#8 ∧ Memory.read [] 14 = some 0x90#8 ∧ Memory.read [(14, 0x00#8)] 14 = some 0x00#8 := by
  decide

/-- R77, R192: a line of a UROM listing, at its lowest and highest label, with and without a comment. -/
theorem test_assembly_lines :
    asmLine ['@', '0', ' ', ' ', 'S', 'R', 'S', 'T', ' ', ';', ' ', 'x'] = some ⟨some 0x0#4, .srst⟩ ∧
    asmLine ['@', 'E', ' ', 'I', 'N', 'C'] = some ⟨some 0xE#4, .inc⟩ ∧
    asmLine ['N', 'T', 'F', ' ', 'R'] = some ⟨none, .ntfR⟩ ∧
    asmLine ['@', 'F', ' ', 'E', 'N', 'C'] = none ∧ asmLine ['S', 'H', 'B', ' ', '7'] = none := by decide

theorem test_witness_StepRunsDecodedInstr :
    ∃ (s : State) (w : Byte) (i : Instr) (rest : List Turn), s.rstN = true ∧ s.fetch = some w ∧
      decodeWord w = .ok i ∧ i.isNotify = false ∧ s.sched = .scan :: rest :=
  ⟨{ State.reset with sched := [.scan, .edgeL] }, 0x10#8, .srst, [.edgeL], rfl, rfl, rfl, rfl, rfl⟩

theorem test_witness_TurnsComeFromScriptOrFree :
    (∃ (s : State) (t : Turn) (rest : List Turn), s.sched = t :: rest) ∧ ∃ s : State, s.sched = [] :=
  ⟨⟨{ State.reset with sched := [.edgeR] }, .edgeR, [], rfl⟩, State.reset, rfl⟩

theorem test_witness_NotifyBelongsToEdgeAgents :
    (∃ (s : State) (w : Byte), s.rstN = true ∧ s.fetch = some w ∧ decodeWord w = .ok .ntfL) ∧
    ∃ (s : State) (w : Byte), s.rstN = true ∧ s.fetch = some w ∧ decodeWord w = .ok .ntfR :=
  ⟨⟨{ State.reset with urom := [(0, 0xA0#8)] }, 0xA0#8, rfl, rfl, rfl⟩,
    ⟨{ State.reset with urom := [(0, 0xA1#8)] }, 0xA1#8, rfl, rfl, rfl⟩⟩

theorem test_witness_ScanAtEmptyAddressFaults : (at' 0xF#4).rstN = true ∧ (at' 0xF#4).upc = 0xF#4 := by decide

theorem test_witness_PlacedWordRunsNext :
    Memory.wf (at' 0x0#4).urom = true ∧ Memory.wf [(0, 0x90#8), (14, 0x00#8)] = true ∧
    (at' 0xE#4).upc ≠ 0xF#4 ∧ (at' 0xF#4).upc = 0xF#4 := by decide

theorem test_witness_ResetHoldsAndReleases :
    held.rstN = false ∧ held.HeldInReset ∧ ∃ t, takeTurn .edgeL held = .next t :=
  ⟨rfl, by decide, _, rfl⟩

theorem test_witness_EdgesInResetNotRemembered : held.rstN = false ∧ held.HeldInReset := by decide

theorem test_witness_ResetDuringRunRestarts : shown.urom = [] ∧ shown.upc ≠ State.reset.upc := by decide

theorem test_witness_ResetLeavesSpecValues : ∃ s : State, s = State.resetWith 0x5A#8 0xC3#8 := ⟨_, rfl⟩

theorem test_witness_SrstClearsSipo :
    ∃ w, Memory.read [] 0 = some w ∧ decodeWord w = .ok .srst := ⟨0x10#8, rfl, rfl⟩

theorem test_witness_EncLoadsPattern :
    (∃ (i : Instr) (s t : State), i ≠ .enc ∧ exec i s = .next t) ∧
    ∃ w, Memory.read [] 1 = some w ∧ decodeWord w = .ok .enc :=
  ⟨⟨.drv, State.reset, _, by decide, rfl⟩, 0x20#8, rfl, rfl⟩

theorem test_witness_LatCopiesStagesToOutputs :
    ∃ w, Memory.read [] 12 = some w ∧ decodeWord w = .ok .lat := ⟨0x70#8, rfl, rfl⟩

theorem test_witness_IncAdvancesFrameValue : ∃ (i : Instr) (s t : State), i ≠ .inc ∧ exec i s = .next t :=
  ⟨.dly, State.reset, _, by decide, rfl⟩

theorem test_witness_PlrPollsRight :
    ∃ s : State, s.Inv ∧ s.upc = 0xA#4 ∧ s.params.rightPolicy = .defer :=
  ⟨{ shown with upc := 0xA#4 }, by decide⟩

theorem test_witness_NotifySetsOwnFlag : State.reset.rstN = true := rfl

/-- Before slot 0 and before slot 6 of frame 0, whose bits are 1, 0, 0, 0, 0, 0, 0 (L3.1). -/
theorem test_witness_ShbShiftsOneBit_bounds :
    (∃ s : State, s.Inv ∧ s.upc = 0x2#4) ∧ ∃ s : State, s.Inv ∧ s.upc = 0x8#4 :=
  ⟨⟨{ shown with upc := 0x2#4, srS := 0x00#8 }, by decide⟩, ⟨{ shown with upc := 0x8#4, srS := 0x20#8 }, by decide⟩⟩

theorem test_witness_PatternWrittenBeforeRead :
    State.reset.Inv ∧ shown.Inv ∧ (∃ t, exec .enc State.reset = .next t) ∧
    { State.reset with urom := [(0, 0x36#8)] }.scanReadsUnwritten = true :=
  ⟨by decide, by decide, ⟨_, rfl⟩, by decide⟩

theorem test_witness_SameLevelWriteOnlyTraced :
    (State.reset.srclrN = false → State.reset.srS = 0x00#8 ∧ State.reset.srQ = 0x00#8) ∧
    ∃ s : State, s.srclrN = false ∧ s.srS = 0x00#8 ∧ s.srQ = 0x00#8 :=
  ⟨by decide, { State.reset with srclrN := false }, by decide⟩

theorem test_witness_SipoShiftsOnRisingEdge :
    (∃ s : State, s.srclk = false ∧ s.srclrN = true ∧ s.params.srEntry = .q0) ∧
    (∃ s : State, s.srclk = false ∧ s.srclrN = true ∧ s.params.srEntry = .q7) ∧
    ∃ s : State, ¬(true = true ∧ s.srclk = false ∧ s.srclrN = true) :=
  ⟨⟨State.reset, by decide⟩, ⟨ready 0x00#7 0x00#8 .idx0First .q7, by decide⟩,
    { State.reset with srclrN := false }, by decide⟩

theorem test_witness_OutputsChangeOnlyOnLatchOrClear :
    (∃ t, exec .lat (State.resetWith 0x79#8 0x40#8) = .next t ∧ t.srQ ≠ (State.resetWith 0x79#8 0x40#8).srQ) ∧
    ∃ t, exec .srst (State.resetWith 0x79#8 0x40#8) = .next t ∧ t.srQ ≠ (State.resetWith 0x79#8 0x40#8).srQ :=
  ⟨⟨_, rfl, by decide⟩, ⟨_, rfl, by decide⟩⟩

theorem test_witness_SecondPressIsLost :
    (polling true false .defer).flagL = true ∧ (polling false true .defer).flagR = true := by decide

theorem test_witness_NotifyCommutesWithOtherOps :
    (∃ t, Instr.plr ≠ .pll ∧ exec .plr (polling true true .defer) = .next t) ∧
    ∃ t, Instr.pll ≠ .plr ∧ exec .pll (polling true true .defer) = .next t :=
  ⟨⟨_, by decide, rfl⟩, ⟨_, by decide, rfl⟩⟩

/-- L1.2: R, R, L, R from 0 ends at 2. -/
theorem test_witness_SelectorPositionLaw :
    ([Button.right, .right, .left, .right].foldl
      (fun u m => if m = .left then u.shiftLeft else u.shiftRight) State.reset).pos = 2#2 := by decide

theorem test_witness_CurrentIsOneHot :
    State.reset.current.getLsbD 0 = true ∧ { State.reset with pos := 3#2 }.current.getLsbD 3 = true ∧
    State.reset.current.getLsbD 3 = false := by decide

theorem test_witness_NoStepWritesRomOrParams :
    ∃ s t : State, step s = .next t := ⟨{ State.reset with sched := [.scan] }, _, rfl⟩

/-- Each clause of the frame: some instruction that answers a state does change the field. -/
theorem test_witness_OnlyNamedWritersWrite :
    got (exec .inc shown) (·.val) ≠ some shown.val ∧ got (exec .enc State.reset) (·.pat) ≠ some State.reset.pat ∧
    got (exec .plr (polling false true .defer)) (·.pos) ≠ some 1#2 ∧
    got (exec .pll (polling true false .defer)) (·.lt) ≠ some false ∧
    got (exec .plr (polling true true .defer)) (·.flagR) ≠ some true ∧
    got (exec .drv (polling true true .defer)) (·.dig) ≠ some 0x0#4 ∧
    got (exec .lat { shown with rclk := true }) (·.rclk) ≠ some true ∧
    got (exec .srst { shown with srclrN := false }) (·.srclrN) ≠ some false := by decide

theorem test_witness_PinsIdleBetweenMicroOps :
    ∃ s t : State, s.PinsIdle ∧ step s = .next t :=
  ⟨{ shown with sched := [.scan] }, _, by decide, rfl⟩

theorem test_witness_StepKeepsMachineInvariant :
    (∃ s t : State, s.Inv ∧ step s = .next t ∧ t.upc = 0xE#4) ∧
    ∃ s t : State, s.Inv ∧ s.rstN = false ∧ step s = .next t :=
  ⟨⟨{ shown with sched := [.scan] }, _, by decide, rfl, rfl⟩,
    ⟨{ held with sched := [.resetHigh] }, _, by decide, rfl, rfl⟩⟩

/-- The invariant rules states out: a display that does not show the frame's glyph does not meet it. -/
theorem test_invariant_refuses :
    ¬(spoilt 0x41#8 false 0x1#4).Inv ∧ ¬(spoilt 0x40#8 true 0x1#4).Inv ∧ ¬(spoilt 0x40#8 false 0x3#4).Inv ∧
    (spoilt 0x40#8 false 0x1#4).Inv ∧ ¬(at' 0xF#4).Inv := by
  refine ⟨by decide, by decide, by decide, by decide, by decide⟩

theorem test_witness_RunsNeverStop : shown.Inv ∧ held.Inv := by decide

theorem test_witness_UpcFollowsMicroprogram :
    (shown.Inv ∧ shown.rstN = true ∧ ∃ t, takeTurn .scan shown = .next t ∧ t.upc = 0xE#4) ∧
    (∃ s t : State, s.Inv ∧ s.rstN = true ∧ s.upc = 0xE#4 ∧ takeTurn .scan s = .next t) ∧
    ∃ t, takeTurn .edgeR shown = .next t :=
  ⟨⟨by decide, rfl, _, rfl, rfl⟩, ⟨{ shown with upc := 0xE#4 }, _, by decide, rfl, rfl, rfl⟩, ⟨_, rfl⟩⟩

theorem test_witness_StepKeepsTraceInvariant :
    ∃ s t : State, s.Inv ∧ s.TraceInv ∧ step s = .next t ∧ t.trace.length = 26 :=
  ⟨{ shown with sched := [.scan] }, _, by decide, by decide, rfl, by decide⟩

/-- The trace's invariant rules traces out: a lost event, a mask that is not one-hot. -/
theorem test_trace_invariant_refuses :
    ¬({ shown with trace := frameZeroTrace.drop 1 } : State).TraceInv ∧
    ¬({ State.reset with trace := [.dig 0x3#4], dig := 0x3#4 } : State).TraceInv := by decide

theorem test_witness_DarkUntilFirstDriveThenOneDigit :
    (State.reset.TraceInv ∧ ∀ e ∈ State.reset.trace, e.isDig = false) ∧
    shown.TraceInv ∧ ∃ e ∈ shown.trace, e.isDig = true := by
  refine ⟨by decide, by decide, .dig 0x1#4, by decide, rfl⟩

theorem test_witness_TransmitFillsStages :
    (ready 0x7E#7 0x81#8 .idx0First .q0).PinsIdle ∧ (ready 0x30#7 0x81#8 .idx6First .q7).PinsIdle ∧
    State.reset.PinsIdle := by decide

/-- A frame before its slots, over stages that are not all 0. -/
theorem test_witness_CarriedOutputIsLastBitSent :
    ∃ s : State, s.Inv ∧ s.upc = 0x2#4 ∧ s.srS ≠ 0x00#8 :=
  ⟨{ State.reset with upc := 0x2#4, pat := 0x7E#7, patWritten := true, srS := 0x40#8 }, by decide⟩

theorem test_witness_DisplayShowsFrameGlyph :
    shown.Inv ∧ shown.params.GlyphCorrect ∧ shown.upc = 0xD#4 ∧ shown.lit 0#2 .a = true ∧ shown.lit 0#2 .g = false ∧
    ({ shown with upc := 0xE#4 } : State).Inv := by decide

theorem test_witness_PollGivesLeftPriority :
    (∃ (s : State) (edges rest : List Turn), s.FixedProgram ∧ s.rstN = true ∧ s.upc = 0x9#4 ∧
      (∀ t ∈ edges, t = .edgeL ∨ t = .edgeR) ∧ s.flagL = true ∧ s.params.rightPolicy = .defer ∧
      s.sched = (.scan :: edges ++ []) ++ rest) ∧
    ∃ (s : State) (edges rest : List Turn), s.FixedProgram ∧ s.rstN = true ∧ s.upc = 0x9#4 ∧
      (∀ t ∈ edges, t = .edgeL ∨ t = .edgeR) ∧ ¬(s.flagL = true ∧ s.params.rightPolicy = .defer) ∧
      s.sched = (.scan :: edges ++ [.scan]) ++ rest :=
  ⟨⟨{ polling true true .defer with sched := [.scan, .edgeR] }, [.edgeR], [], by decide⟩,
    ⟨{ polling false false .defer with sched := [.scan, .edgeL, .edgeR, .scan, .edgeL] }, [.edgeL, .edgeR], [.edgeL],
      by decide⟩⟩

/-- An edge on the right between PLL and PLR is taken by PLR (R61, R176). -/
theorem test_right_edge_between_polls :
    got (Sys2Proof.core.run 3 { polling false false .defer with sched := [.scan, .edgeR, .scan] })
      (fun t : State => (t.pos, t.flagR, t.upc)) = some (2#2, false, 0xB#4) := by decide

/-- Frame 0 after its DRV and before its LAT. -/
def driven : State :=
  { shown with upc := 0xC#4, srQ := 0x00#8, trace := frameZeroTrace.take 24 }

theorem test_witness_StaleGlyphBetweenDriveAndLatch :
    driven.Inv ∧ driven.TraceInv ∧ driven.BlankBeforeLatch ∧ driven.upc = 0xC#4 ∧ driven.rises .rclk = 0 ∧
    (∃ t, step { driven with sched := [.scan] } = .next t) ∧ ∃ t, step { driven with sched := [.edgeL] } = .next t :=
  ⟨by decide, by decide, by decide, rfl, by decide, ⟨_, rfl⟩, ⟨_, rfl⟩⟩

theorem test_witness_FrameRefinesFunction :
    (∃ (s : State) (rest : List Turn), s.FixedProgram ∧ s.rstN = true ∧ s.upc = 0x1#4 ∧ s.frameSteps = 14 ∧
      s.sched = List.replicate s.frameSteps .scan ++ rest) ∧
    ∃ (s : State) (rest : List Turn), s.FixedProgram ∧ s.rstN = true ∧ s.upc = 0x1#4 ∧ s.frameSteps = 13 ∧
      s.sched = List.replicate s.frameSteps .scan ++ rest :=
  ⟨⟨{ at' 0x1#4 with sched := List.replicate 14 .scan }, [], by decide⟩,
    ⟨{ at' 0x1#4 with flagL := true, sched := List.replicate 13 .scan }, [], by decide⟩⟩

theorem test_witness_FrameEmitsTwentyFourEvents :
    ∃ (s : State) (rest : List Turn), s.FixedProgram ∧ s.rstN = true ∧ s.upc = 0x1#4 ∧
      s.sched = List.replicate s.frameSteps .scan ++ rest :=
  ⟨{ at' 0x1#4 with sched := List.replicate 14 .scan ++ [.edgeL] }, [.edgeL], by decide⟩

theorem test_witness_FrameValueAdvances :
    ∃ (s : State) (turns rest : List Turn), s.Inv ∧ s.rstN = true ∧ s.sched = turns ++ rest ∧
      (∀ t ∈ turns, t = .scan ∨ t = .edgeL ∨ t = .edgeR) ∧ 15 ≤ turns.count .scan :=
  ⟨{ shown with sched := .edgeL :: List.replicate 15 .scan }, .edgeL :: List.replicate 15 .scan, [], by decide⟩

end Sys2Proof.Tests
end

/-! ## The scope: whose turn a step is, and that no run reads `pat` unwritten (00_scope.md) -/

namespace Sys2Proof.Machine

/-! ### Steps and runs -/

/-- R59, log 3: where turns are scripted, a step is the first of them. -/
theorem step_of_sched_cons {s : State} {t : Turn} {rest : List Turn} (h : s.sched = t :: rest) :
    step s = takeTurn t { s with sched := rest } := by
  simp [step, State.nextTurn, h]

/-- R9, log 3: where nothing is scripted, a step is the next free turn. -/
theorem step_of_sched_nil {s : State} (h : s.sched = []) :
    step s = takeTurn (Config.freeTurn s.tick) { s with tick := s.tick + 1 } := by
  simp [step, State.nextTurn, h]

@[simp] theorem nextTurn_upc (s : State) : s.nextTurn.2.upc = s.upc := by rw [nextTurn_state]

@[simp] theorem nextTurn_patWritten (s : State) : s.nextTurn.2.patWritten = s.patWritten := by rw [nextTurn_state]

@[simp] theorem nextTurn_urom (s : State) : s.nextTurn.2.urom = s.urom := by rw [nextTurn_state]

/-- A run of `k + 1` steps that answers a state is a step that answers one, and a run of `k` steps from there. -/
theorem run_succ_next {k : Nat} {s t : State} (h : Sys2Proof.core.run (k + 1) s = .next t) :
    ∃ u, step s = .next u ∧ Sys2Proof.core.run k u = .next t := by
  cases hs : step s with
  | next u => exact ⟨u, rfl, by rwa [run_succ hs] at h⟩
  | fault r =>
    have hs : Sys2Proof.core.step s = .fault r := hs
    simp [Host.Core.run, hs] at h
  | refused r =>
    have hs : Sys2Proof.core.step s = .refused r := hs
    simp [Host.Core.run, hs] at h

/-- What every step keeps, every run keeps. -/
theorem run_keeps {P : State → Prop} (hstep : ∀ s t, P s → step s = .next t → P t) {k : Nat} {s t : State}
    (hs : P s) (h : Sys2Proof.core.run k s = .next t) : P t := by
  induction k generalizing s with
  | zero => cases h; exact hs
  | succ k ih =>
    obtain ⟨u, hu, ht⟩ := run_succ_next h
    exact ih (hstep s u hs hu) ht

/-! ### What the fixed program holds at each address (R192) -/

/-- Decoding an instruction's word gives the instruction back (R71, R72). -/
theorem decodeWord_encode (i : Instr) : decodeWord (encode i) = .ok i := by cases i <;> rfl

/-- The microprogram is SRST and one FRAME, encoded (R78, R192). -/
theorem microprogram_eq_map_encode : microprogram = (Instr.srst :: Pseudo.expand .frame).map encode := rfl

/-- The instruction that SCAN fetches from the fixed program is the one that stands at `upc` in SRST and then FRAME. -/
theorem getElem?_of_fetch {s : State} {w : Byte} {i : Instr} (hp : s.FixedProgram) (hw : s.fetch = some w)
    (hi : decodeWord w = .ok i) : (Instr.srst :: Pseudo.expand .frame)[s.upc.toNat]? = some i := by
  rw [State.fetch, hp, Memory.read_nil, microprogram_eq_map_encode, List.getElem?_map, Option.map_eq_some_iff] at hw
  obtain ⟨j, hj, rfl⟩ := hw
  rw [decodeWord_encode] at hi
  cases hi
  exact hj

/-- SCAN runs SRST at address 0 and ENC at address 1, and whatever else it runs stands behind them. -/
theorem fetched_srst_or_enc_or_behind {s : State} {w : Byte} {i : Instr} (hp : s.FixedProgram)
    (hw : s.fetch = some w) (hi : decodeWord w = .ok i) :
    (s.upc = 0x0#4 ∧ i = .srst) ∨ (s.upc = 0x1#4 ∧ i = .enc) ∨ 2 ≤ s.upc.toNat := by
  have hat := getElem?_of_fetch hp hw hi
  obtain hu | hu | hu : s.upc = 0x0#4 ∨ s.upc = 0x1#4 ∨ 2 ≤ s.upc.toNat := by bv_omega
  · exact .inl ⟨hu, by simpa [hu, eq_comm] using hat⟩
  · exact .inr (.inl ⟨hu, by simpa [hu, Pseudo.expand, eq_comm] using hat⟩)
  · exact .inr (.inr hu)

/-! ### The mark of `pat` (R13) -/

/-- ENC alone marks `pat` written, and no instruction removes the mark. -/
theorem exec_patWritten {i : Instr} {s t : State} (h : exec i s = .next t) :
    t.patWritten = (s.patWritten || decide (i = .enc)) := by
  rcases exec_next h with ⟨rfl, rfl⟩ | ⟨rfl, rfl⟩ | ⟨k, _, hk, rfl⟩ | ⟨rfl, rfl⟩ | ⟨rfl, rfl⟩ | ⟨rfl, rfl⟩ |
    ⟨rfl, rfl⟩ | ⟨rfl, rfl⟩ | ⟨rfl, rfl⟩ | ⟨rfl, rfl⟩ | ⟨rfl, rfl⟩
  case inr.inr.inl =>
    have hi : i ≠ .enc := by rintro rfl; cases hk
    simp [hi]
  all_goals simp

/-- No instruction writes UROM (R63). -/
theorem exec_urom {i : Instr} {s t : State} (h : exec i s = .next t) : t.urom = s.urom := by
  rcases exec_next h with ⟨_, rfl⟩ | ⟨_, rfl⟩ | ⟨_, _, _, rfl⟩ | ⟨_, rfl⟩ | ⟨_, rfl⟩ | ⟨_, rfl⟩ |
    ⟨_, rfl⟩ | ⟨_, rfl⟩ | ⟨_, rfl⟩ | ⟨_, rfl⟩ | ⟨_, rfl⟩ <;> rfl

/-- An instruction reads `pat` unwritten exactly if it is an SHB and the mark still stands. -/
theorem readsUnwritten_iff (i : Instr) (s : State) :
    s.readsUnwritten i = true ↔
      s.patWritten = false ∧ i ∈ [.shb0, .shb1, .shb2, .shb3, .shb4, .shb5, .shb6] := by
  cases i <;> simp [State.readsUnwritten, Instr.slot]

/-- SCAN reads `pat` unwritten only by fetching an instruction that does. -/
theorem exists_of_scanReadsUnwritten {s : State} (h : s.scanReadsUnwritten = true) :
    ∃ w i, s.fetch = some w ∧ decodeWord w = .ok i ∧ s.readsUnwritten i = true := by
  obtain ⟨_, h⟩ := (Bool.and_eq_true _ _).mp h
  split at h
  next w hw =>
    split at h
    next i hi => exact ⟨w, i, hw, hi, h⟩
    next => cases h
  next => cases h

/-- The part of the machine's invariant that R196 rests on: under the fixed program, `pat` is written wherever `upc`
stands behind ENC. It is an invariant by itself. -/
def State.WrittenAfterEnc (s : State) : Prop := s.FixedProgram ∧ (2 ≤ s.upc.toNat → s.patWritten = true)

theorem writtenAfterEnc_of_inv {s : State} (h : s.Inv) : s.WrittenAfterEnc := by
  obtain ⟨hprog, _, _, hpat, _⟩ := h
  exact ⟨hprog, fun hu => (hpat hu).1⟩

/-- SCAN's micro-op keeps it: SRST goes to ENC, ENC sets the mark, and behind ENC the mark stands, which no micro-op
removes. -/
theorem exec_keeps_writtenAfterEnc {s t : State} {w : Byte} {i : Instr} (hs : s.WrittenAfterEnc)
    (hw : s.fetch = some w) (hi : decodeWord w = .ok i) (h : exec i s = .next t) : t.WrittenAfterEnc := by
  obtain ⟨hprog, hpat⟩ := hs
  refine ⟨(exec_urom h).trans hprog, fun ht => ?_⟩
  rw [exec_patWritten h]
  rcases fetched_srst_or_enc_or_behind hprog hw hi with ⟨hu, rfl⟩ | ⟨_, rfl⟩ | hu
  · cases h
    simp [State.pinWrite_srclrN_low, State.pinWrite_srclrN_high, hu] at ht
  · simp
  · simp [hpat hu]

/-- Every step keeps it: an edge touches neither `upc` nor the mark, and the reset input sets `upc` to 0. -/
theorem step_keeps_writtenAfterEnc (s t : State) (hs : s.WrittenAfterEnc) (h : step s = .next t) :
    t.WrittenAfterEnc := by
  have hs' : s.nextTurn.2.WrittenAfterEnc := by simpa [State.WrittenAfterEnc, State.FixedProgram] using hs
  rcases takeTurn_next h with ⟨_, _, w, i, hw, hi, _, hx⟩ | ⟨_, b, _, rfl⟩ | ⟨_, rfl⟩ | ⟨_, _, rfl⟩ | ⟨_, rfl⟩
  · exact exec_keeps_writtenAfterEnc hs' hw hi hx
  · simpa [State.WrittenAfterEnc, State.FixedProgram, State.notify] using hs
  · exact ⟨hs'.1, by simp [State.assertReset, State.resetWith]⟩
  · exact ⟨hs'.1, by simp [State.assertReset, State.resetWith]⟩
  · exact hs'

/-- R196: where it holds, SCAN's next micro-op does not read `pat` unwritten, since SRST and ENC are no SHB. -/
theorem scanReadsUnwritten_of_writtenAfterEnc {s : State} (hs : s.WrittenAfterEnc) :
    s.scanReadsUnwritten = false := by
  refine Bool.eq_false_iff.mpr fun hread => ?_
  obtain ⟨w, i, hw, hi, hread⟩ := exists_of_scanReadsUnwritten hread
  obtain ⟨hprog, hpat⟩ := hs
  obtain ⟨hmark, hshb⟩ := (readsUnwritten_iff i s).mp hread
  rcases fetched_srst_or_enc_or_behind hprog hw hi with ⟨_, rfl⟩ | ⟨_, rfl⟩ | hu
  · simp at hshb
  · simp at hshb
  · simp [hpat hu] at hmark

/-- Settles O7: the two ways the next turn is chosen, by what is scripted. -/
theorem turnsComeFromScriptOrFree : Obligations.TurnsComeFromScriptOrFree :=
  ⟨fun _ _ _ h => step_of_sched_cons h, fun _ h => step_of_sched_nil h⟩

/-- Settles O19: the reads by cases on the instruction, the runs by the invariant `State.WrittenAfterEnc`. -/
theorem patternWrittenBeforeRead : Obligations.PatternWrittenBeforeRead :=
  ⟨rfl, fun _ _ _ h => exec_patWritten h, readsUnwritten_iff, fun _ _ _ hs h =>
    scanReadsUnwritten_of_writtenAfterEnc (run_keeps step_keeps_writtenAfterEnc (writtenAfterEnc_of_inv hs) h)⟩

end Sys2Proof.Machine

/-! ## The state: who writes each part of it, and what the pin trace says of it (10_state.md) -/

namespace Sys2Proof.Machine

/-! ### What an instruction writes (R20, R28, R35) -/

/-- The instructions with a shift slot are the seven SHB. -/
theorem mem_shifts_of_slot {i : Instr} {k : Nat} (h : i.slot = some k) :
    i ∈ [.shb0, .shb1, .shb2, .shb3, .shb4, .shb5, .shb6] := by
  cases i <;> cases h <;> decide

/-- The pin events of an instruction, by the state it runs in (R124, R125, R126, R153). -/
def State.eventsOf (s : State) (i : Instr) : List PinEvent :=
  match i.slot with
  | some k => [.line .ser (slotLevel s.params.emitOrder s.pat k), .line .srclk true, .line .srclk false]
  | none =>
    match i with
    | .srst => [.line .srclrN false, .line .srclrN true]
    | .drv => [.dig (onehot4 s.pos)]
    | .lat => [.line .rclk true, .line .rclk false]
    | _ => []

/-- The events of an SHB are those of its slot. -/
theorem State.eventsOf_slot (s : State) {i : Instr} {k : Nat} (h : i.slot = some k) :
    s.eventsOf i =
      [.line .ser (slotLevel s.params.emitOrder s.pat k), .line .srclk true, .line .srclk false] := by
  simp only [eventsOf, h]

/-- What an instruction does to the trace: it appends its events (R32). -/
theorem exec_trace {i : Instr} {s t : State} (h : exec i s = .next t) : t.trace = s.trace ++ s.eventsOf i := by
  rcases exec_next h with ⟨rfl, rfl⟩ | ⟨rfl, rfl⟩ | ⟨k, _, hk, rfl⟩ | ⟨rfl, rfl⟩ | ⟨rfl, rfl⟩ | ⟨rfl, rfl⟩ |
    ⟨rfl, rfl⟩ | ⟨rfl, rfl⟩ | ⟨rfl, rfl⟩ | ⟨rfl, rfl⟩ | ⟨rfl, rfl⟩
  case inr.inr.inl => rw [s.eventsOf_slot hk]
  all_goals simp [State.eventsOf, Instr.slot]

/-- Settles O40: in each case of what an instruction can have done, the fields it does not write stand as they were. -/
theorem onlyNamedWritersWrite : Obligations.OnlyNamedWritersWrite := by
  intro i s t h
  have htrace := exec_trace h
  rcases exec_next h with ⟨rfl, rfl⟩ | ⟨rfl, rfl⟩ | ⟨k, _, hk, rfl⟩ | ⟨rfl, rfl⟩ | ⟨rfl, rfl⟩ | ⟨rfl, rfl⟩ |
    ⟨rfl, rfl⟩ | ⟨rfl, rfl⟩ | ⟨rfl, rfl⟩ | ⟨rfl, rfl⟩ | ⟨rfl, rfl⟩
  case inr.inr.inl =>
    have hshb := mem_shifts_of_slot hk
    have hnotify : i.isNotify = false := by cases i <;> cases hk <;> rfl
    simp [hshb, hnotify]
  all_goals simp [Instr.isNotify]

/-! ### Traces one after the other -/

theorem traceLevel_append (pin : Pin) (l : Level) (xs ys : List PinEvent) :
    traceLevel pin l (xs ++ ys) = traceLevel pin (traceLevel pin l xs) ys := by
  induction xs generalizing l with
  | nil => rfl
  | cons e xs ih => cases e <;> exact ih _

theorem traceDig_append (m : Nibble) (xs ys : List PinEvent) :
    traceDig m (xs ++ ys) = traceDig (traceDig m xs) ys := by
  induction xs generalizing m with
  | nil => rfl
  | cons e xs ih => cases e <;> exact ih _

theorem risingEdges_append (pin : Pin) (l : Level) (xs ys : List PinEvent) :
    risingEdges pin l (xs ++ ys) = risingEdges pin l xs + risingEdges pin (traceLevel pin l xs) ys := by
  induction xs generalizing l with
  | nil => simp [risingEdges, traceLevel]
  | cons e xs ih =>
    cases e with
    | line p v => by_cases hp : p = pin <;> simp [risingEdges, traceLevel, hp, ih, Nat.add_assoc]
    | dig m => exact ih l

/-! ### What an instruction's events say of the pins (R29, R154) -/

/-- `onehot4` is one of the four masks (R152). -/
theorem oneHot_onehot4 (p : BitVec 2) : (PinEvent.dig (onehot4 p)).oneHot = true := by
  revert p; decide

/-- An instruction's events take each pin's level before it to the one after it. -/
theorem traceLevel_eventsOf {i : Instr} {s t : State} (h : exec i s = .next t) (pin : Pin) :
    traceLevel pin (s.level pin) (s.eventsOf i) = t.level pin := by
  rcases exec_next h with ⟨rfl, rfl⟩ | ⟨rfl, rfl⟩ | ⟨k, _, hk, rfl⟩ | ⟨rfl, rfl⟩ | ⟨rfl, rfl⟩ | ⟨rfl, rfl⟩ |
    ⟨rfl, rfl⟩ | ⟨rfl, rfl⟩ | ⟨rfl, rfl⟩ | ⟨rfl, rfl⟩ | ⟨rfl, rfl⟩
  case inr.inr.inl => rw [s.eventsOf_slot hk]; cases pin <;> rfl
  all_goals cases pin <;> rfl

/-- An instruction's events take the digit lines before it to those after it. -/
theorem traceDig_eventsOf {i : Instr} {s t : State} (h : exec i s = .next t) :
    traceDig s.dig (s.eventsOf i) = t.dig := by
  rcases exec_next h with ⟨rfl, rfl⟩ | ⟨rfl, rfl⟩ | ⟨k, _, hk, rfl⟩ | ⟨rfl, rfl⟩ | ⟨rfl, rfl⟩ | ⟨rfl, rfl⟩ |
    ⟨rfl, rfl⟩ | ⟨rfl, rfl⟩ | ⟨rfl, rfl⟩ | ⟨rfl, rfl⟩ | ⟨rfl, rfl⟩
  case inr.inr.inl => rw [s.eventsOf_slot hk]; rfl
  all_goals rfl

/-- Every mask an instruction drives is one-hot: DRV alone drives one (R154, R156). -/
theorem oneHot_of_mem_eventsOf {s : State} {i : Instr} {e : PinEvent} (he : e ∈ s.eventsOf i) : e.oneHot = true := by
  cases e with
  | line => rfl
  | dig m =>
    cases i
    case drv => rw [List.mem_singleton.mp he]; exact oneHot_onehot4 s.pos
    all_goals simp [State.eventsOf, Instr.slot] at he

/-! ### The part of the trace's invariant that holds at every address -/

/-- The level a pin holds is the level last written to it, for every pin (R29). -/
theorem State.LevelsTraced.level {s : State} (h : s.LevelsTraced) (pin : Pin) :
    traceLevel pin (resetLevel pin) s.trace = s.level pin :=
  h pin (by cases pin <;> decide)

/-- An instruction keeps the levels (R29). -/
theorem exec_keeps_levelsTraced {i : Instr} {s t : State} (hs : s.LevelsTraced) (h : exec i s = .next t) :
    t.LevelsTraced := fun pin _ => by
  rw [exec_trace h, traceLevel_append, hs.level, traceLevel_eventsOf h]

/-- An instruction keeps the digit lines' mask (R29). -/
theorem exec_keeps_digTraced {i : Instr} {s t : State} (hs : s.DigTraced) (h : exec i s = .next t) :
    t.DigTraced := by
  rw [State.DigTraced, exec_trace h, traceDig_append, hs, traceDig_eventsOf h]

/-- An instruction drives only one-hot masks (R154). -/
theorem exec_keeps_masksOneHot {i : Instr} {s t : State} (hs : s.MasksOneHot) (h : exec i s = .next t) :
    t.MasksOneHot := fun e he => by
  rw [exec_trace h] at he
  exact (List.mem_append.mp he).elim (hs e) oneHot_of_mem_eventsOf

/-! ### The counts of the trace's invariant: what an instruction adds (R135, R262) -/

/-- A pin rises in an instruction as often as in its events, from the level the pin holds. -/
theorem exec_rises {i : Instr} {s t : State} (hs : s.LevelsTraced) (h : exec i s = .next t) (pin : Pin) :
    t.rises pin = s.rises pin + risingEdges pin (s.level pin) (s.eventsOf i) := by
  rw [State.rises, exec_trace h, risingEdges_append, hs.level]
  rfl

/-- From idle pins `RCLK` rises once in LAT, and in no other instruction (R125). -/
theorem exec_rises_rclk {i : Instr} {s t : State} (hs : s.LevelsTraced) (hidle : s.PinsIdle)
    (h : exec i s = .next t) : t.rises .rclk = s.rises .rclk + if i = .lat then 1 else 0 := by
  obtain ⟨_, hrclk, _⟩ := hidle
  rw [exec_rises hs h]
  cases i <;> simp [State.eventsOf, Instr.slot, risingEdges, State.level, hrclk]

/-- From idle pins `SRCLK` rises once in an SHB, and in no other instruction (R124). -/
theorem exec_rises_srclk {i : Instr} {s t : State} (hs : s.LevelsTraced) (hidle : s.PinsIdle)
    (h : exec i s = .next t) : t.rises .srclk = s.rises .srclk + if i.slot.isSome then 1 else 0 := by
  obtain ⟨hsrclk, _, _⟩ := hidle
  rw [exec_rises hs h]
  cases i <;> simp [State.eventsOf, Instr.slot, risingEdges, State.level, hsrclk]

/-- The trace grows by an instruction's events. -/
theorem exec_trace_length {i : Instr} {s t : State} (h : exec i s = .next t) :
    t.trace.length = s.trace.length + (s.eventsOf i).length := by
  rw [exec_trace h, List.length_append]

/-- The fixed program holds each instruction once, so a fetched instruction says where `upc` stands (R192). -/
theorem upc_of_fetch {s : State} {w : Byte} {i : Instr} (hp : s.FixedProgram) (hw : s.fetch = some w)
    (hi : decodeWord w = .ok i) : s.upc = BitVec.ofNat 4 ((Instr.srst :: Pseudo.expand .frame).idxOf i) := by
  obtain ⟨hlt, hget⟩ := List.getElem?_eq_some_iff.mp (getElem?_of_fetch hp hw hi)
  rw [← hget, List.Nodup.idxOf_getElem (by decide), BitVec.ofNat_toNat, BitVec.setWidth_eq]

/-- The SHB of slot `k` stands at address `k + 2` (R192). -/
theorem idxOf_slot {i : Instr} {k : Nat} (h : i.slot = some k) :
    (Instr.srst :: Pseudo.expand .frame).idxOf i = k + 2 := by
  cases i <;> cases h <;> decide

/-- The three counts of the pin trace's invariant, on numbers: at address `u` with frame value `v`, after `len` events,
`shifts` rises of `SRCLK` and `latches` rises of `RCLK` (R135, R195, R262). -/
def CountsAt (u v : Nibble) (len shifts latches : Nat) : Prop :=
  (shifts = 7 * latches + if 13 ≤ u.toNat then 0 else bitsShifted u) ∧
  (len = if u = 0x0#4 then 0 else 2 + 24 * latches + eventsInto u) ∧
  (if 13 ≤ u.toNat then v + 1#4 else v) = BitVec.ofNat 4 latches

/-- The counts of a state. -/
abbrev State.Counted (s : State) : Prop :=
  CountsAt s.upc s.val s.trace.length (s.rises .srclk) (s.rises .rclk)

/-- The trace's invariant is the part about levels and masks, and the counts. -/
theorem State.traceInv_iff (s : State) :
    s.TraceInv ↔ s.LevelsTraced ∧ s.DigTraced ∧ s.MasksOneHot ∧ s.Counted := Iff.rfl

/-- Before SRST nothing was latched. -/
theorem State.Counted.rises_eq_zero {s : State} (h : s.Counted) (hu : s.upc = 0x0#4) (pin : Pin) :
    s.rises pin = 0 := by
  obtain ⟨_, hlen, _⟩ := h
  have : s.trace = [] := by simpa [hu] using hlen
  rw [State.rises, this]
  rfl

/-- SCAN's micro-op keeps the counts: the micro-op fixes the address it stands at, and so the number of shifts and
events that its frame has made before it. -/
theorem exec_keeps_counted {s t : State} {w : Byte} {i : Instr} (hp : s.FixedProgram) (hidle : s.PinsIdle)
    (hlev : s.LevelsTraced) (hs : s.Counted) (hw : s.fetch = some w) (hi : decodeWord w = .ok i)
    (hn : i.isNotify = false) (h : exec i s = .next t) : t.Counted := by
  have hu := upc_of_fetch hp hw hi
  have hzero := hs.rises_eq_zero
  rw [State.Counted, exec_rises_rclk hlev hidle h, exec_rises_srclk hlev hidle h, exec_trace_length h]
  rcases exec_next h with ⟨rfl, rfl⟩ | ⟨rfl, rfl⟩ | ⟨k, _, hk, rfl⟩ | ⟨rfl, rfl⟩ | ⟨rfl, rfl⟩ | ⟨rfl, rfl⟩ |
    ⟨rfl, rfl⟩ | ⟨rfl, rfl⟩ | ⟨rfl, rfl⟩ | ⟨rfl, rfl⟩ | ⟨rfl, rfl⟩
  case inr.inr.inl => -- SHB k
    have hlat : i ≠ .lat := by rintro rfl; cases hk
    rw [idxOf_slot hk] at hu
    obtain rfl | rfl | rfl | rfl | rfl | rfl | rfl :
      k = 0 ∨ k = 1 ∨ k = 2 ∨ k = 3 ∨ k = 4 ∨ k = 5 ∨ k = 6 := by omega
    all_goals simpa [CountsAt, hu, hk, hlat, s.eventsOf_slot hk, bitsShifted, eventsInto] using hs
  all_goals simp only [State.eventsOf, Instr.slot]
  · -- SRST, before which the trace is empty
    replace hu : s.upc = 0x0#4 := hu
    simpa [CountsAt, hu, hzero, bitsShifted, eventsInto] using hs
  · -- ENC
    replace hu : s.upc = 0x1#4 := hu
    simpa [CountsAt, hu, bitsShifted, eventsInto] using hs
  · -- PLL, to 0xB or to 0xA
    replace hu : s.upc = 0x9#4 := hu
    split <;> simpa [CountsAt, hu, bitsShifted, eventsInto] using hs
  · -- PLR
    replace hu : s.upc = 0xA#4 := hu
    simpa [CountsAt, hu, bitsShifted, eventsInto] using hs
  · -- DRV
    replace hu : s.upc = 0xB#4 := hu
    simpa [CountsAt, hu, bitsShifted, eventsInto] using hs
  · -- LAT, which ends the count of the frame
    replace hu : s.upc = 0xC#4 := hu
    obtain ⟨hshifts, hlen, hval⟩ : _ = _ + 7 ∧ _ = _ + 22 ∧ _ := by
      simpa [CountsAt, hu, bitsShifted, eventsInto] using hs
    refine ⟨?_, ?_, ?_⟩
    · simp [hu, hshifts]; omega
    · simp [hu, hlen, eventsInto]; omega
    · simp [hu, hval, BitVec.ofNat_add]
  · -- DLY
    replace hu : s.upc = 0xD#4 := hu
    simpa [CountsAt, hu, bitsShifted, eventsInto] using hs
  · -- INC
    replace hu : s.upc = 0xE#4 := hu
    simpa [CountsAt, hu, bitsShifted, eventsInto] using hs
  · cases hn -- SCAN runs no NTF
  · cases hn

/-- SCAN's micro-op keeps the pin trace's invariant. -/
theorem exec_keeps_traceInv {s t : State} {w : Byte} {i : Instr} (hp : s.FixedProgram) (hidle : s.PinsIdle)
    (hs : s.TraceInv) (hw : s.fetch = some w) (hi : decodeWord w = .ok i) (hn : i.isNotify = false)
    (h : exec i s = .next t) : t.TraceInv := by
  obtain ⟨hlev, hdig, hmask, hcount⟩ := s.traceInv_iff.mp hs
  exact ⟨exec_keeps_levelsTraced hlev h, exec_keeps_digTraced hdig h, exec_keeps_masksOneHot hmask h,
    exec_keeps_counted hp hidle hlev hcount hw hi hn h⟩

/-- The block's registers and pins right after reset meet it (R29, R251), whatever the other fields hold. -/
theorem traceInv_of_reset_values {s : State} (htrace : s.trace = []) (hupc : s.upc = 0x0#4) (hval : s.val = 0x0#4)
    (hdig : s.dig = 0x0#4) (hlev : ∀ pin, s.level pin = resetLevel pin) : s.TraceInv := by
  refine ⟨fun pin _ => ?_, ?_, ?_, ?_, ?_, ?_⟩
  · rw [htrace, hlev, traceLevel]
  · rw [State.DigTraced, htrace, hdig, traceDig]
  · simp [State.MasksOneHot, htrace]
  · simp [State.SevenShiftsPerLatch, State.rises, htrace, hupc, risingEdges, bitsShifted]
  · simp [State.EventsCounted, htrace, hupc]
  · simp [State.ValueCountsFrames, State.rises, htrace, hupc, hval, risingEdges]

/-- Settles O47: the state of R251 has the registers and pins of reset, whatever the SIPO holds. -/
theorem resetMeetsTraceInvariant : Obligations.ResetMeetsTraceInvariant := by
  have hreset (stages outputs : Byte) : (State.resetWith stages outputs).TraceInv :=
    traceInv_of_reset_values rfl rfl rfl rfl fun pin => by cases pin <;> rfl
  exact ⟨hreset, hreset 0x00#8 0x00#8⟩

/-- Settles O46: SCAN's micro-op keeps the invariant, an edge touches nothing it speaks of, and the reset input brings
back the values of reset. -/
theorem stepKeepsTraceInvariant : Obligations.StepKeepsTraceInvariant := by
  intro s t ⟨hprog, _, hidle, _⟩ hs h
  have hs' : s.nextTurn.2.TraceInv := by rw [nextTurn_state]; exact hs
  have hprog' : s.nextTurn.2.FixedProgram := by rw [nextTurn_state]; exact hprog
  have hidle' : s.nextTurn.2.PinsIdle := by rw [nextTurn_state]; exact hidle
  rcases takeTurn_next h with ⟨_, _, w, i, hw, hi, hn, hx⟩ | ⟨_, b, _, rfl⟩ | ⟨_, rfl⟩ | ⟨_, _, rfl⟩ | ⟨_, rfl⟩
  · exact exec_keeps_traceInv hprog' hidle' hs' hw hi hn hx
  · cases b <;> exact hs'
  · exact traceInv_of_reset_values rfl rfl rfl rfl fun pin => by cases pin <;> rfl
  · exact traceInv_of_reset_values rfl rfl rfl rfl fun pin => by cases pin <;> rfl
  · exact hs'

end Sys2Proof.Machine

/-! ## The memory: what UROM holds, that nothing writes the ROMs, and the orders of pin writes and of racing accesses
(20_memory.md) -/

namespace Sys2Proof.Machine

/-! ### Writing a pin the level it has (R57) -/

@[simp] theorem State.setLevel_level_self (s : State) (pin : Pin) : s.setLevel pin (s.level pin) = s := by
  cases pin <;> rfl

/-- A write of the present level is no edge, so the SIPO does not react to it; under `SRCLR_n` = 0 it stays clear. -/
theorem State.sipoReact_level_self {s : State} (hclear : s.srclrN = false → s.srS = 0x00#8 ∧ s.srQ = 0x00#8)
    (pin : Pin) : s.sipoReact pin (s.level pin) = s := by
  cases pin with
  | ser => rfl
  | srclk => simp [sipoReact, level]
  | rclk => simp [sipoReact, level]
  | srclrN =>
    cases hclr : s.srclrN with
    | true => simp [sipoReact, level, hclr]
    | false =>
      obtain ⟨hS, hQ⟩ := hclear hclr
      calc s.sipoReact .srclrN (s.level .srclrN)
        _ = s.setSipo 0x00#8 0x00#8 := by simp [sipoReact, level, hclr]
        _ = s.setSipo s.srS s.srQ := by rw [hS, hQ]
        _ = s := rfl

/-- Settles O27: neither the SIPO nor the pin changes, and the event is what is left of the write. -/
theorem sameLevelWriteOnlyTraced : Obligations.SameLevelWriteOnlyTraced := by
  intro s pin hclear
  rw [State.pinWrite, State.sipoReact_level_self hclear, State.setLevel_level_self, State.emit]

/-! ### Nothing writes UROM, LUT or a parameter (R20, R63) -/

/-- No instruction writes a parameter (R20). -/
theorem exec_params {i : Instr} {s t : State} (h : exec i s = .next t) : t.params = s.params := by
  rcases exec_next h with ⟨_, rfl⟩ | ⟨_, rfl⟩ | ⟨_, _, _, rfl⟩ | ⟨_, rfl⟩ | ⟨_, rfl⟩ | ⟨_, rfl⟩ |
    ⟨_, rfl⟩ | ⟨_, rfl⟩ | ⟨_, rfl⟩ | ⟨_, rfl⟩ | ⟨_, rfl⟩ <;> rfl

/-- No turn writes UROM or a parameter: the reset input keeps both (log 5). -/
theorem takeTurn_urom_params {turn : Turn} {s t : State} (h : takeTurn turn s = .next t) :
    t.urom = s.urom ∧ t.params = s.params := by
  rcases takeTurn_next h with ⟨_, _, _, _, _, _, _, hx⟩ | ⟨_, w, _, rfl⟩ | ⟨_, rfl⟩ | ⟨_, _, rfl⟩ | ⟨_, rfl⟩
  · exact ⟨exec_urom hx, exec_params hx⟩
  · exact ⟨s.setFlag_urom w true, s.setFlag_params w true⟩
  all_goals exact ⟨rfl, rfl⟩ -- the reset input's two changes, and no change

@[simp] theorem nextTurn_params (s : State) : s.nextTurn.2.params = s.params := by rw [nextTurn_state]

/-- No step writes UROM or a parameter. -/
theorem step_urom_params {s t : State} (h : step s = .next t) : t.urom = s.urom ∧ t.params = s.params := by
  simpa using takeTurn_urom_params h

/-- Settles O39: a step keeps the cells of UROM and the parameters, and LUT is one of the parameters. -/
theorem noStepWritesRomOrParams : Obligations.NoStepWritesRomOrParams := by
  intro s t h
  obtain ⟨hurom, hparams⟩ := step_urom_params h
  exact ⟨fun a => by rw [hurom], fun v => by rw [State.lut, State.lut, hparams], hparams⟩

/-! ### What UROM holds (R53, R192) -/

/-- UROM of the fixed program reads, at an address of SRST and FRAME, as the word of the instruction there. -/
theorem Memory.read_nil_eq_map_encode (a : Nat) :
    Memory.read [] a = (Instr.srst :: Pseudo.expand .frame)[a]?.map encode := by
  rw [Memory.read_nil, microprogram_eq_map_encode, List.getElem?_map]

/-- Settles O4: each word of the microprogram is an instruction's encoding, which decodes to that instruction. -/
theorem uromHoldsMicroprogram : Obligations.UromHoldsMicroprogram := by
  refine ⟨fun a ha => ?_, Memory.read_fifteen⟩
  have hat := List.getElem?_eq_getElem (l := Instr.srst :: Pseudo.expand .frame) (i := a) ha
  simp [Memory.read_nil_eq_map_encode, hat, decodeWord_encode, Except.toOption]

/-- At 0xF there is no word to fetch, whatever the cells of UROM. -/
theorem fetch_eq_none {s : State} (hu : s.upc = 0xF#4) : s.fetch = none := by
  rw [State.fetch, hu]
  exact Memory.read_fifteen s.urom

/-- Where no word is fetched, SCAN's turn faults (log 9). -/
theorem scanTurn_of_fetch_eq_none {s : State} (hr : s.rstN = true) (hf : s.fetch = none) :
    scanTurn s = .fault .noMicroOp := by
  simp [scanTurn, hr, hf]

/-- Settles O9: at 0xF no word is fetched. -/
theorem scanAtEmptyAddressFaults : Obligations.ScanAtEmptyAddressFaults :=
  fun _ hr hu => scanTurn_of_fetch_eq_none hr (fetch_eq_none hu)

/-! ### An edge that races its poll (R59 to R61) -/

/-- NTF L sets the left flag (R171). -/
theorem exec_ntfL (s : State) : exec .ntfL s = .next { s with flagL := true } := rfl

/-- NTF R sets the right flag (R171). -/
theorem exec_ntfR (s : State) : exec .ntfR s = .next { s with flagR := true } := rfl

/-- PLL polls the left flag and goes on as R194 says (R175). -/
theorem exec_pll (s : State) : exec .pll s = .next { s with
    lt := s.flagL, flagL := false, pos := if s.flagL then s.pos + 3#2 else s.pos,
    upc := if s.flagL = true ∧ s.params.rightPolicy = .defer then 0xB#4 else s.upc + 1#4 } := by
  simp only [exec, execPll, State.pollLeft_eq, State.afterPollLeft, State.advance, State.setUpc]
  by_cases h : s.flagL = true ∧ s.params.rightPolicy = .defer <;> simp [h]

/-- PLR polls the right flag (R176). -/
theorem exec_plr (s : State) : exec .plr s = .next { s with
    flagR := false, pos := if s.flagR = true ∧ s.lt = false then s.pos + 1#2 else s.pos, upc := s.upc + 1#4 } := by
  simp only [exec, execPlr, State.pollRight_eq, State.advance, State.setUpc]

/-- Two instructions in order, where both answer a state. -/
theorem execSeq_pair {i j : Instr} {s t u : State} (hi : exec i s = .next t) (hj : exec j t = .next u) :
    execSeq [i, j] s = .next u := by
  simp [execSeq, hi, hj]

/-- Settles O34: each order is two whole next states one after the other, and the poll sees the flag that the edge has
set, or the edge sets the flag that the poll has cleared. -/
theorem raceAdmitsBothOrders : Obligations.RaceAdmitsBothOrders := by
  intro s
  refine ⟨⟨_, execSeq_pair (exec_ntfL s) (exec_pll _), rfl, rfl, rfl⟩,
    ⟨_, execSeq_pair (exec_pll s) (exec_ntfL _), rfl, rfl⟩,
    ⟨_, execSeq_pair (exec_ntfR s) (exec_plr _), rfl, ?_⟩,
    ⟨_, execSeq_pair (exec_plr s) (exec_ntfR _), rfl, rfl⟩⟩
  cases s.lt <;> rfl

end Sys2Proof.Machine

/-! ## The encoding: the words that decode, the lines of assembly, and whose operation NTF is (30_encoding.md) -/

namespace Sys2Proof

/-! ### The fields of a word (R71) -/

/-- A word's two fields put together again are the word. -/
theorem Fields.toWord_ofWord (w : Byte) : (Fields.ofWord w).toWord = w := by
  rw [toWord, ofWord, BitVec.extractLsb'_append_extractLsb'_eq_extractLsb' (by rfl)]
  simp

theorem Fields.ofWord_op_toNat (w : Byte) : (Fields.ofWord w).op.toNat = w.toNat / 16 := by
  simp [ofWord, Nat.shiftRight_eq_div_pow]; omega

theorem Fields.ofWord_arg_toNat (w : Byte) : (Fields.ofWord w).arg.toNat = w.toNat % 16 := by
  simp [ofWord]

/-! ### What each family of operations accepts (R73, R74) -/

theorem decodeBare_ok {i j : Instr} {arg : Nibble} (h : decodeBare i arg = .ok j) : j = i ∧ arg = 0x0#4 := by
  unfold decodeBare at h
  split at h
  next harg => cases h; exact ⟨rfl, harg⟩
  next => cases h

theorem decodeBare_error_iff (i : Instr) (arg : Nibble) :
    (∃ e, decodeBare i arg = .error e) ↔ arg.toNat ≠ 0 := by
  unfold decodeBare
  split
  next harg => simp [harg]
  next harg => simp; bv_omega

/-- `arg[3]` is 1 from the argument 8 on. -/
theorem getLsbD_three_iff (arg : Nibble) : arg.getLsbD 3 = true ↔ 8 ≤ arg.toNat := by
  revert arg; decide

/-- Below 8 the slot number `arg[2:0]` is the whole argument. -/
theorem extractLsb'_zero_three_toNat {arg : Nibble} (h : arg.toNat < 8) :
    (arg.extractLsb' 0 3).toNat = arg.toNat := by
  simp [Nat.mod_eq_of_lt h]

theorem decodeShift_ok {i : Instr} {arg : Nibble} (h : decodeShift arg = .ok i) : i.op = 0x3#4 ∧ i.arg = arg := by
  unfold decodeShift at h
  simp only [getLsbD_three_iff] at h
  split at h
  next => cases h
  next hlt =>
    rw [extractLsb'_zero_three_toNat (Nat.lt_of_not_le hlt)] at h
    split at h <;> cases h <;> exact ⟨rfl, BitVec.eq_of_toNat_eq (Eq.symm ‹_›)⟩

theorem decodeShift_error_iff (arg : Nibble) : (∃ e, decodeShift arg = .error e) ↔ 7 ≤ arg.toNat := by
  unfold decodeShift
  simp only [getLsbD_three_iff]
  split
  next h => simp; omega
  next h =>
    rw [extractLsb'_zero_three_toNat (Nat.lt_of_not_le h)]
    split
    case h_8 => -- no slot of R73
      simp only [imp_false] at *; simp; omega
    all_goals simp; omega

/-- `arg[3:1]` is 000 for the arguments 0 and 1 only. -/
theorem extractLsb'_one_three_eq_zero_iff (arg : Nibble) :
    arg.extractLsb' 1 3 = 0x0#3 ↔ arg = 0x0#4 ∨ arg = 0x1#4 := by
  revert arg; decide

theorem decodeNotify_ok {i : Instr} {arg : Nibble} (h : decodeNotify arg = .ok i) : i.op = 0xA#4 ∧ i.arg = arg := by
  unfold decodeNotify at h
  simp only [extractLsb'_one_three_eq_zero_iff] at h
  split at h
  next hw => obtain rfl | rfl := hw <;> cases h <;> exact ⟨rfl, rfl⟩
  next => cases h

theorem decodeNotify_error_iff (arg : Nibble) : (∃ e, decodeNotify arg = .error e) ↔ 2 ≤ arg.toNat := by
  unfold decodeNotify
  simp only [extractLsb'_one_three_eq_zero_iff]
  split
  next hw => obtain rfl | rfl := hw <;> simp
  next hw => simp; bv_omega

/-! ### The decoder and the encoder (R71, R72, R76) -/

/-- Fields that decode are those of the instruction they decode to: each row of R72 has its own `op`, and each family
fixes `arg`. -/
theorem decodeFields_ok {f : Fields} {i : Instr} (h : decodeFields f = .ok i) : ⟨i.op, i.arg⟩ = f := by
  obtain ⟨op, arg⟩ := f
  rw [Fields.mk.injEq]
  unfold decodeFields at h
  split at h
  case h_3 hop => -- SHB
    obtain ⟨hi, harg⟩ := decodeShift_ok h
    exact ⟨hi.trans (BitVec.eq_of_toNat_eq hop.symm), harg⟩
  case h_10 hop => -- NTF
    obtain ⟨hi, harg⟩ := decodeNotify_ok h
    exact ⟨hi.trans (BitVec.eq_of_toNat_eq hop.symm), harg⟩
  case h_11 => cases h -- no `op` of R72
  all_goals -- the operations without operand
    obtain ⟨rfl, rfl⟩ := decodeBare_ok h
    exact ⟨BitVec.eq_of_toNat_eq (Eq.symm ‹_›), rfl⟩

/-- The fields that do not decode, as numbers (R74). -/
theorem decodeFields_error_iff (f : Fields) :
    (∃ e, decodeFields f = .error e) ↔
      f.op.toNat = 0 ∨ 11 ≤ f.op.toNat ∨ (f.op.toNat ≠ 3 ∧ f.op.toNat ≠ 10 ∧ f.arg.toNat ≠ 0) ∨
        (f.op.toNat = 3 ∧ 8 ≤ f.arg.toNat) ∨ (f.op.toNat = 10 ∧ 2 ≤ f.arg.toNat) ∨
        (f.op.toNat = 3 ∧ f.arg.toNat = 7) := by
  unfold decodeFields
  split
  case h_3 => rw [decodeShift_error_iff]; omega -- SHB
  case h_10 => rw [decodeNotify_error_iff]; omega -- NTF
  case h_11 => simp only [imp_false] at *; simp; omega -- no `op` of R72
  all_goals rw [decodeBare_error_iff]; omega

/-- A word decodes to an instruction exactly when it is that instruction's encoding (R71). -/
theorem decodeWord_eq_ok_iff {w : Byte} {i : Instr} : decodeWord w = .ok i ↔ encode i = w := by
  constructor
  · intro h
    rw [encode, decodeFields_ok h, Fields.toWord_ofWord]
  · rintro rfl
    exact Machine.decodeWord_encode i

/-- Decoding takes one word, whatever follows it (R76). -/
theorem decode_cons_eq_ok_iff {w : Byte} {rest : List Byte} {i : Instr} :
    decode (w :: rest) = .ok (i, rest) ↔ decodeWord w = .ok i := by
  rw [decode]
  cases decodeWord w <;> simp

/-- Settles O1: decoding a list is decoding its first word, and the decoder and the encoder are inverse on words. -/
theorem decodeInvertsEncode : Obligations.DecodeInvertsEncode :=
  fun _ _ _ => decode_cons_eq_ok_iff.trans decodeWord_eq_ok_iff

/-- Settles O3: the table's words are the encodings of its instructions. -/
theorem specWordsDecode : Obligations.SpecWordsDecode := by
  change ∀ p ∈ List.map (fun i => (encode i, i)) [.srst, .enc, .shb0, .shb1, .shb2, .shb3, .shb4, .shb5, .shb6,
    .pll, .plr, .drv, .lat, .dly, .inc, .ntfL, .ntfR], _
  exact List.forall_mem_map.mpr fun i _ => Machine.decodeWord_encode i

/-! ### Lines of assembly (R77) -/

/-- What follows a `;` is no code. -/
theorem asmCode_append_comment (code comment : List Char) : asmCode (code ++ ';' :: comment) = asmCode code := by
  induction code with
  | nil => simp [asmCode]
  | cons c code ih => simp [asmCode, ih]

/-- A comment changes nothing of what a line spells. -/
theorem asmLine_append_comment (code comment : List Char) : asmLine (code ++ ';' :: comment) = asmLine code := by
  rw [asmLine, asmLine, asmCode_append_comment]

/-- The words of a micro-op's text spell the micro-op. -/
theorem asmInstr_text (i : Instr) : asmInstr (asmWords [] (asmCode i.text)) = some i := by
  cases i <;> rfl

/-- Without a label, a line of a micro-op's text spells the micro-op. -/
theorem asmLine_text (i : Instr) : asmLine i.text = some ⟨none, i⟩ := by
  cases i <;> rfl

/-- With a label, a line of a micro-op's text spells the address of the label and the micro-op, if the label names an
address. -/
theorem asmLine_label_text {n : Char} (hcomment : n ≠ ';') (hspace : n ≠ ' ') (i : Instr) :
    asmLine ('@' :: n :: ' ' :: i.text) = (asmAddress n).map (⟨some ·, i⟩) := by
  have hwords : asmWords [] (asmCode ('@' :: n :: ' ' :: i.text)) = ['@', n] :: asmWords [] (asmCode i.text) := by
    simp [asmCode, asmWords, hcomment, hspace]
  rw [asmLine, hwords]
  simp only [asmInstr_text]
  cases asmAddress n <;> rfl

/-- A label of R77 names its address and is neither a space nor the start of a comment. -/
theorem asmLine_address_text {n : Char} {a : Nibble} (h : asmAddress n = some a) (i : Instr) :
    asmLine ('@' :: n :: ' ' :: i.text) = some ⟨some a, i⟩ := by
  have hcomment : n ≠ ';' := by rintro rfl; cases h
  have hspace : n ≠ ' ' := by rintro rfl; cases h
  rw [asmLine_label_text hcomment hspace, h, Option.map_some]

/-- Settles O5: a comment is cut off, the label is an address, and the text spells the micro-op. -/
theorem assemblyLineSpellsInstr : Obligations.AssemblyLineSpellsInstr := by
  refine ⟨fun i => ⟨asmLine_text i, fun comment => ?_⟩, fun p hp i => ?_,
    fun i => asmLine_label_text (by decide) (by decide) i, by decide⟩
  · rw [asmLine_append_comment, asmLine_text]
  · have haddress : asmAddress p.1 = some p.2 := by
      revert p; decide
    have hline := asmLine_address_text haddress i
    exact ⟨hline, fun comment => (asmLine_append_comment ('@' :: p.1 :: ' ' :: i.text) comment).trans hline⟩

end Sys2Proof

namespace Sys2Proof.Machine

/-! ### Words that SCAN refuses (R74, R75) -/

/-- SCAN runs the word it fetches (R191). -/
theorem scanTurn_of_fetch_eq_some {s : State} {w : Byte} (hr : s.rstN = true) (hw : s.fetch = some w) :
    scanTurn s = runWord w s := by
  simp [scanTurn, hr, hw]

theorem runWord_of_error {w : Byte} {e : Reject} (h : decodeWord w = .error e) (s : State) :
    runWord w s = .refused (.invalidWord w) := by
  simp [runWord, h]

theorem runWord_of_isNotify {w : Byte} {i : Instr} (h : decodeWord w = .ok i) (hn : i.isNotify = true) (s : State) :
    runWord w s = .refused .notScanOp := by
  simp [runWord, h, hn]

/-- Every word of the microprogram is the encoding of an instruction that is not NTF (R192). -/
theorem exists_encode_of_mem_microprogram {w : Byte} (h : w ∈ microprogram) :
    ∃ i : Instr, i.isNotify = false ∧ encode i = w := by
  rw [microprogram_eq_map_encode, List.mem_map] at h
  obtain ⟨i, hi, rfl⟩ := h
  have hnone : ∀ j ∈ Instr.srst :: Pseudo.expand .frame, j.isNotify = false := by decide
  exact ⟨i, hnone i hi, rfl⟩

/-- Settles O2: the fields that do not decode, by a word's two digits; SCAN refuses what does not decode; and the
microprogram holds encodings. -/
theorem rejectsExactlyInvalidWords : Obligations.RejectsExactlyInvalidWords := by
  refine ⟨fun w => ⟨?_, fun s e hr hw he => ?_⟩, fun w hw => ?_⟩
  · have h := decodeFields_error_iff (Fields.ofWord w)
    rwa [Fields.ofWord_op_toNat, Fields.ofWord_arg_toNat] at h
  · exact (scanTurn_of_fetch_eq_some hr hw).trans (runWord_of_error he s)
  · obtain ⟨i, _, rfl⟩ := exists_encode_of_mem_microprogram hw
    exact ⟨i, decodeWord_encode i⟩

/-- While `rst_n` is 1, an edge agent's turn is the NTF of its button (R75). -/
theorem edgeTurn_of_rstN {s : State} (hr : s.rstN = true) (b : Button) : edgeTurn b s = exec (notifyOf b) s :=
  if_pos hr

/-- Settles O8: SCAN refuses both NTF, an edge agent runs its own, and the microprogram holds neither. -/
theorem notifyBelongsToEdgeAgents : Obligations.NotifyBelongsToEdgeAgents := by
  refine ⟨fun s w i hr hw hi hntf => ?_, fun s hr => ⟨edgeTurn_of_rstN hr .left, edgeTurn_of_rstN hr .right⟩,
    fun w hw i hi => ?_⟩
  · have hn : i.isNotify = true := by obtain rfl | rfl := hntf <;> rfl
    exact (scanTurn_of_fetch_eq_some hr hw).trans (runWord_of_isNotify hi hn s)
  · obtain ⟨j, hj, rfl⟩ := exists_encode_of_mem_microprogram hw
    obtain rfl : j = i := by simpa [decodeWord_encode] using hi
    exact hj

end Sys2Proof.Machine

/-! ## ENC and the segment table (40_segment_lut_encoder.md) -/

namespace Sys2Proof.Machine

/-! ### ENC (R103) -/

/-- An instruction that a word of the fixed UROM decodes to stands at that word's address in SRST and FRAME, and at no
other (R192). -/
theorem idxOf_of_read_nil {a : Nat} {w : Byte} {i : Instr} (hw : Memory.read [] a = some w)
    (hi : decodeWord w = .ok i) : (Instr.srst :: Pseudo.expand .frame).idxOf i = a := by
  rw [Memory.read_nil_eq_map_encode, Option.map_eq_some_iff] at hw
  obtain ⟨j, hj, rfl⟩ := hw
  obtain rfl : j = i := by simpa [decodeWord_encode] using hi
  obtain ⟨_, rfl⟩ := List.getElem?_eq_some_iff.mp hj
  exact List.Nodup.idxOf_getElem (by decide) _ _

/-- No micro-op but ENC writes `pat` or its mark. -/
theorem exec_pat_of_ne_enc {i : Instr} {s t : State} (hi : i ≠ .enc) (h : exec i s = .next t) :
    t.pat = s.pat ∧ t.patWritten = s.patWritten := by
  obtain ⟨_, hpat, _⟩ := onlyNamedWritersWrite i s t h
  exact ⟨Decidable.byContradiction fun hne => hi (hpat (.inl hne)),
    Decidable.byContradiction fun hne => hi (hpat (.inr hne))⟩

/-- Settles O17: ENC's next state is the record update itself, no other instruction writes `pat`, and ENC is second in
SRST and FRAME. -/
theorem encLoadsPattern : Obligations.EncLoadsPattern :=
  ⟨decodeWord_encode .enc, fun _ => rfl, fun _ _ _ => exec_pat_of_ne_enc,
    fun _ _ hw hi => (idxOf_of_read_nil hw hi).symm⟩

/-! ### The default glyph table (R101, R102) -/

/-- The entries of the default table are pairwise distinct (R102). -/
theorem defaultGlyph_nodup : defaultGlyph.toList.Nodup := by decide

/-- `encode` of the default table is injective (R102). -/
theorem defaultGlyph_get_inj (v w : Nibble) :
    defaultGlyph.get v.toFin = defaultGlyph.get w.toFin ↔ v = w := by
  refine ⟨fun h => BitVec.eq_of_toNat_eq ?_, fun h => h ▸ rfl⟩
  have hidx (u : Nibble) : defaultGlyph.toList.idxOf (defaultGlyph.get u.toFin) = u.toNat :=
    defaultGlyph_nodup.idxOf_getElem u.toNat u.isLt
  rw [← hidx v, ← hidx w, h]

/-- What `encode` answers is an entry of the default table. -/
theorem defaultGlyph_get_mem (v : Nibble) : defaultGlyph.get v.toFin ∈ defaultGlyph.toList :=
  List.getElem_mem (l := defaultGlyph.toList) v.isLt

/-- Settles O38: entry 8 has every segment ON and, the entries being distinct, no other does; the all-off pattern is
not in the table. -/
theorem defaultGlyphTable : Obligations.DefaultGlyphTable := by
  have hblank : 0x00#7 ∉ defaultGlyph.toList := by decide
  exact ⟨rfl, defaultGlyph_nodup, fun v => defaultGlyph_get_inj v 0x8#4,
    fun v hv => hblank (hv ▸ defaultGlyph_get_mem v), rfl⟩

end Sys2Proof.Machine

/-! ## The serializer: its micro-ops, the SIPO it feeds, and what the display shows
(41_shift_register_serializer.md) -/

namespace Sys2Proof.Machine

/-! ### SRST, SHB and LAT (R124 to R126) -/

/-- SRST clears the SIPO and leaves `SRCLR_n` at 1 (R126, R130). -/
theorem exec_srst (s : State) : exec .srst s = .next { s with
    srS := 0x00#8, srQ := 0x00#8, srclrN := true,
    trace := s.trace ++ [.line .srclrN false, .line .srclrN true], upc := s.upc + 1#4 } := by
  simp [exec, execSrst, State.pinWrite_srclrN_low, State.pinWrite_srclrN_high, State.advance, State.setUpc]

/-- LAT copies the stages to the outputs and leaves `RCLK` at 0 (R125, R129). -/
theorem exec_lat (s : State) : exec .lat s = .next { s with
    srQ := if s.rclk = false then s.srS else s.srQ, rclk := false,
    trace := s.trace ++ [.line .rclk true, .line .rclk false], upc := s.upc + 1#4 } := by
  simp only [exec, execLat, State.latchPulse_eq, State.advance, State.setUpc]

/-- An instruction with a shift slot is the SHB of that slot (R73). -/
theorem exec_of_slot {i : Instr} {k : Nat} (h : i.slot = some k) (s : State) : exec i s = shiftSlot k s := by
  cases i <;> cases h <;> rfl

/-- Settles O16: the whole next state, and SRST is first in SRST and FRAME. -/
theorem srstClearsSipo : Obligations.SrstClearsSipo :=
  ⟨decodeWord_encode .srst, exec_srst, fun _ _ hw hi => (idxOf_of_read_nil hw hi).symm⟩

/-- Settles O20: the whole next state, and LAT is the one at address 12 of SRST and FRAME. -/
theorem latCopiesStagesToOutputs : Obligations.LatCopiesStagesToOutputs :=
  ⟨decodeWord_encode .lat, exec_lat, fun _ _ hw hi => (idxOf_of_read_nil hw hi).symm⟩

/-- The level that a slot sends, with R123's choice of the bit written out. -/
theorem slotLevel_eq_ite (order : EmitOrder) (pattern : Pattern) (k : Nat) :
    slotLevel order pattern k = !pattern.getLsbD (if order = .idx0First then k else 6 - k) := by
  cases order <;> rfl

/-- A shift as a shift of the vector with the new bit put in at the entry's end (R127, R128). -/
theorem shiftIn_eq_ite (entry : SrEntry) (stages : Byte) (d : Level) :
    shiftIn entry stages d =
      if entry = .q0 then (stages <<< 1) ||| (if d then 0x01#8 else 0x00#8)
      else (stages >>> 1) ||| (if d then 0x80#8 else 0x00#8) := by
  cases entry with
  | q0 =>
    refine BitVec.eq_of_getLsbD_eq fun k hk => ?_
    have hbit : (if d then 0x01#8 else 0x00#8).getLsbD k = (decide (k = 0) && d) := by
      cases d <;> simp [BitVec.getLsbD_one]
    rw [shiftIn_getLsbD _ _ _ k hk, if_pos rfl, BitVec.getLsbD_or, BitVec.getLsbD_shiftLeft, hbit]
    rcases k with _ | k <;> simp [hk]
  | q7 =>
    refine BitVec.eq_of_getLsbD_eq fun k hk => ?_
    have hbit : (if d then 0x80#8 else 0x00#8).getLsbD k = (decide (7 = k) && d) := by
      cases d with
      | false => simp
      | true => exact (BitVec.getLsbD_twoPow 7 k).trans (by simp)
    rw [shiftIn_getLsbD _ _ _ k hk, if_neg (nofun : SrEntry.q7 ≠ .q0), BitVec.getLsbD_or,
      BitVec.getLsbD_ushiftRight, hbit]
    by_cases h : k = 7 <;> simp [h, eq_comm, Nat.add_comm]

/-- Settles O18: each of the seven is the SHB of its slot, whose next state is known; what the machine's invariant says
of the pins and of `pat` is part of it. -/
theorem shbShiftsOneBit : Obligations.ShbShiftsOneBit := by
  refine ⟨fun p hp => ?_, fun s hs hlo _ => ?_⟩
  · have hslot : p.2.slot = some p.1 ∧ BitVec.ofNat 8 (0x30 + p.1) = encode p.2 := by
      revert p; decide
    obtain ⟨hslot, hword⟩ := hslot
    refine ⟨hword ▸ decodeWord_encode p.2, fun s => ?_⟩
    simp only [exec_of_slot hslot, shiftSlot_eq, slotLevel_eq_ite, shiftIn_eq_ite]
  · obtain ⟨_, _, ⟨hsrclk, _, hsrclrN⟩, hpat, _⟩ := hs
    exact ⟨(hpat hlo).1, hsrclk, hsrclrN⟩

/-! ### The SIPO's reactions (R127, R129, R130) -/

/-- Settles O28: a write of 0 leaves the SIPO alone, and a write of 1 shifts it exactly on an edge with `SRCLR_n` = 1. -/
theorem sipoShiftsOnRisingEdge : Obligations.SipoShiftsOnRisingEdge := by
  intro s level
  cases level with
  | false => simp [State.pinWrite_srclk_low]
  | true =>
    rw [State.pinWrite_srclk_high]
    refine ⟨rfl, fun hno => if_neg fun hedge => hno ⟨rfl, hedge⟩, fun _ hsrclk hsrclrN k hk => ?_⟩
    rw [if_pos ⟨hsrclk, hsrclrN⟩]
    exact shiftIn_getLsbD _ _ _ k hk

/-- What a pin write does to the SIPO's outputs (R129, R130). -/
theorem State.pinWrite_srQ (s : State) (pin : Pin) (level : Level) :
    (s.pinWrite pin level).srQ =
      if pin = .rclk ∧ level = true ∧ s.rclk = false then s.srS
      else if pin = .srclrN ∧ level = false then 0x00#8 else s.srQ := by
  cases pin with
  | ser => rfl
  | srclk => cases level <;> simp [pinWrite_srclk_low, pinWrite_srclk_high]
  | rclk => cases level <;> simp [pinWrite_rclk_low, pinWrite_rclk_high]
  | srclrN => cases level <;> rfl

/-- Settles O29: the outputs after a pin write, pin by pin, and the writers of `SR.Q` among the micro-ops. -/
theorem outputsChangeOnlyOnLatchOrClear : Obligations.OutputsChangeOnlyOnLatchOrClear := by
  refine ⟨State.pinWrite_srQ, fun i s t h hne => ?_⟩
  obtain ⟨_, _, _, _, _, _, _, _, _, _, _, hsrQ, _⟩ := onlyNamedWritersWrite i s t h
  exact (hsrQ hne).symm

/-! ### The pins between micro-ops (R137) -/

/-- Every micro-op that writes a clock or the clear leaves it at its idle level. -/
theorem exec_keeps_pinsIdle {i : Instr} {s t : State} (hs : s.PinsIdle) (h : exec i s = .next t) : t.PinsIdle := by
  obtain ⟨hsrclk, hrclk, hsrclrN⟩ := hs
  rcases exec_next h with ⟨_, rfl⟩ | ⟨_, rfl⟩ | ⟨_, _, _, rfl⟩ | ⟨_, rfl⟩ | ⟨_, rfl⟩ | ⟨_, rfl⟩ |
    ⟨_, rfl⟩ | ⟨_, rfl⟩ | ⟨_, rfl⟩ | ⟨_, rfl⟩ | ⟨_, rfl⟩ <;> simp [State.PinsIdle, hsrclk, hrclk, hsrclrN]

/-- Every turn keeps the pins idle: an edge writes no pin, and the reset input sets them to their idle levels. -/
theorem takeTurn_keeps_pinsIdle {turn : Turn} {s t : State} (hs : s.PinsIdle) (h : takeTurn turn s = .next t) :
    t.PinsIdle := by
  rcases takeTurn_next h with ⟨_, _, _, _, _, _, _, hx⟩ | ⟨_, b, _, rfl⟩ | ⟨_, rfl⟩ | ⟨_, _, rfl⟩ | ⟨_, rfl⟩
  · exact exec_keeps_pinsIdle hs hx
  · cases b <;> exact hs
  · exact ⟨rfl, rfl, rfl⟩
  · exact ⟨rfl, rfl, rfl⟩
  · exact hs

/-- Settles O41: the reset values, and a step is a turn. -/
theorem pinsIdleBetweenMicroOps : Obligations.PinsIdleBetweenMicroOps :=
  ⟨⟨rfl, rfl, rfl⟩, fun s t hs h =>
    takeTurn_keeps_pinsIdle (s := s.nextTurn.2) (by rw [nextTurn_state]; exact hs) h⟩

/-! ### Bits sent one after the other (R127, R133) -/

/-- The last `bits.length` bits shifted into the stages were these, first one first: each stands where R127 has moved it
since. -/
def HoldsBits (entry : SrEntry) (stages : Byte) (bits : List Level) : Prop :=
  ∀ (j : Nat) (b : Level), bits[j]? = some b → stages.getLsbD (stageOf entry bits.length j) = b

/-- The stage at the entry's end holds the bit sent last. -/
theorem holdsBits_entry (entry : SrEntry) (stages : Byte) :
    HoldsBits entry stages [stages.getLsbD (entryIndex entry)] := by
  intro j b hb
  obtain ⟨rfl, rfl⟩ : j = 0 ∧ stages.getLsbD (entryIndex entry) = b := by simpa [List.getElem?_singleton] using hb
  cases entry <;> rfl

/-- The shift of slot `n` puts its bit into the stage that R127 gives it after `n + 1` shifts. -/
theorem shiftIn_getLsbD_new (entry : SrEntry) (stages : Byte) (d : Level) {n : Nat} (hn : n < 8) :
    (shiftIn entry stages d).getLsbD (stageOf entry (n + 1) n) = d := by
  cases entry with
  | q0 =>
    have hstage : stageOf .q0 (n + 1) n = 0 := by simp [stageOf]
    rw [hstage, shiftIn_getLsbD _ _ _ _ (by decide)]
    rfl
  | q7 =>
    have hstage : stageOf .q7 (n + 1) n = 7 := by simp [stageOf]; omega
    rw [hstage, shiftIn_getLsbD _ _ _ _ (by decide)]
    rfl

/-- A shift moves the bit of an earlier slot from its stage to its next one. -/
theorem shiftIn_getLsbD_moved (entry : SrEntry) (stages : Byte) (d : Level) {n j : Nat} (hj : j < n) (hn : n < 8) :
    (shiftIn entry stages d).getLsbD (stageOf entry (n + 1) j) = stages.getLsbD (stageOf entry n j) := by
  cases entry with
  | q0 =>
    have hfrom : n + 1 - 1 - j ≠ 0 := by omega
    have hto : n + 1 - 1 - j - 1 = n - 1 - j := by omega
    rw [stageOf, shiftIn_getLsbD _ _ _ _ (by omega)]
    simp only [hfrom, hto, if_false, stageOf]
  | q7 =>
    have hfrom : 8 - (n + 1) + j ≠ 7 := by omega
    have hto : 8 - (n + 1) + j + 1 = 8 - n + j := by omega
    rw [stageOf, shiftIn_getLsbD _ _ _ _ (by omega)]
    simp only [hfrom, hto, if_false, stageOf]

/-- One more shift moves each bit to its next stage and puts the new one in, as long as none falls out at the far end. -/
theorem HoldsBits.shiftIn {entry : SrEntry} {stages : Byte} {bits : List Level} (h : HoldsBits entry stages bits)
    (hlen : bits.length < 8) (d : Level) : HoldsBits entry (shiftIn entry stages d) (bits ++ [d]) := by
  intro j b hb
  rw [List.length_append, List.length_singleton]
  rcases Nat.lt_trichotomy j bits.length with hj | rfl | hj
  · rw [List.getElem?_append_left hj] at hb
    rw [shiftIn_getLsbD_moved entry stages d hj hlen, h j b hb]
  · obtain rfl : d = b := by simpa using hb
    exact shiftIn_getLsbD_new entry stages d hlen
  · rw [List.getElem?_eq_none (by rw [List.length_append, List.length_singleton]; omega)] at hb
    cases hb

/-- Shifting in a list of bits appends it to the bits held, as long as all of them fit into the eight stages. -/
theorem HoldsBits.foldl_shiftIn {entry : SrEntry} {stages : Byte} {bits : List Level}
    (h : HoldsBits entry stages bits) (ds : List Level) (hlen : bits.length + ds.length ≤ 8) :
    HoldsBits entry (ds.foldl (Machine.shiftIn entry) stages) (bits ++ ds) := by
  induction ds generalizing stages bits with
  | nil => simpa using h
  | cons d ds ih =>
    rw [List.length_cons] at hlen
    rw [List.append_cons]
    exact ih (h.shiftIn (by omega) d) (by rw [List.length_append, List.length_singleton]; omega)

/-- After a frame's seven shifts, the stage that got no new bit holds the bit that stood at the entry's end before. -/
theorem HoldsBits.carried {entry : SrEntry} {stages : Byte} {b : Level} {bits : List Level}
    (h : HoldsBits entry stages (b :: bits)) (hlen : bits.length = 7) :
    stages.getLsbD (carriedIndex entry) = b := by
  have hfirst := h 0 b rfl
  rw [List.length_cons, hlen] at hfirst
  cases entry <;> exact hfirst

/-- After a frame's seven shifts, each bit stands in the stage of its slot. -/
theorem HoldsBits.slot {entry : SrEntry} {stages : Byte} {b c : Level} {bits : List Level}
    (h : HoldsBits entry stages (b :: bits)) (hlen : bits.length = 7) {j : Nat} (hj : bits[j]? = some c) :
    stages.getLsbD (stageOf entry 7 j) = c := by
  have hstage : stageOf entry 8 (j + 1) = stageOf entry 7 j := by cases entry <;> simp only [stageOf] <;> omega
  have hnext := h (j + 1) c hj
  rwa [List.length_cons, hlen, hstage] at hnext

/-! ### The transmission of a pattern (R121, R133) -/

/-- SHBs from idle pins shift their slots' levels in, one after the other, and leave the outputs alone. -/
theorem execSeq_slots {is : List Instr} {ks : List Nat} (hslots : is.map Instr.slot = ks.map some) {s : State}
    (hidle : s.PinsIdle) :
    ∃ t, execSeq is s = .next t ∧ t.PinsIdle ∧ t.srQ = s.srQ ∧
      t.srS = (ks.map (slotLevel s.params.emitOrder s.pat)).foldl (shiftIn s.params.srEntry) s.srS := by
  induction is generalizing ks s with
  | nil =>
    obtain rfl : ks = [] := by simpa using hslots
    exact ⟨s, rfl, hidle, rfl, rfl⟩
  | cons i is ih =>
    obtain ⟨k, ks, rfl⟩ : ∃ k ks', ks = k :: ks' := by cases ks <;> simp at hslots ⊢
    obtain ⟨hslot, hslots⟩ := List.cons_eq_cons.mp hslots
    have hexec := (exec_of_slot hslot s).trans (shiftSlot_eq k s)
    obtain ⟨t, ht, hpins, hsrQ, hsrS⟩ := ih hslots (exec_keeps_pinsIdle hidle hexec)
    obtain ⟨hsrclk, _, hsrclrN⟩ := hidle
    refine ⟨t, ?_, hpins, hsrQ, ?_⟩
    · simpa only [execSeq, hexec] using ht
    · simpa [hsrclk, hsrclrN] using hsrS

/-- XMIT from idle pins: behind the bit that stood at the entry's end, the stages hold the seven levels sent. -/
theorem execSeq_xmit {s : State} (hidle : s.PinsIdle) :
    ∃ t, execSeq (Pseudo.expand .xmit) s = .next t ∧ t.PinsIdle ∧ t.srQ = s.srQ ∧
      HoldsBits s.params.srEntry t.srS (s.srS.getLsbD (entryIndex s.params.srEntry) ::
        (List.range 7).map (slotLevel s.params.emitOrder s.pat)) := by
  obtain ⟨t, ht, hpins, hsrQ, hsrS⟩ :=
    execSeq_slots (is := Pseudo.expand .xmit) (ks := List.range 7) (by decide) hidle
  refine ⟨t, ht, hpins, hsrQ, hsrS ▸ ?_⟩
  exact (holdsBits_entry s.params.srEntry s.srS).foldl_shiftIn _ (by simp)

/-- The stage of a slot after a frame's seven shifts, as R133 numbers it. -/
theorem stageOf_seven_eq_ite (entry : SrEntry) (j : Nat) :
    stageOf entry 7 j = if entry = .q0 then 6 - j else 1 + j := by
  cases entry <;> rfl

/-- Settles O49: XMIT leaves the carried bit and the seven sent in their stages, and `RCLK` at 0, so LAT copies them. -/
theorem transmitFillsStages : Obligations.TransmitFillsStages := by
  intro s hidle
  obtain ⟨t, ht, ⟨_, hrclk, _⟩, hsrQ, hbits⟩ := execSeq_xmit hidle
  refine ⟨t, ht, hsrQ, fun i hi => ?_, ?_, _, exec_lat t, if_pos hrclk, rfl⟩
  · have hslot := hbits.slot (by simp) (j := i) (by rw [List.getElem?_map, List.getElem?_range hi]; rfl)
    rwa [stageOf_seven_eq_ite, slotLevel_eq_ite] at hslot
  · have hcarried := hbits.carried (by simp)
    cases hentry : s.params.srEntry <;> simpa [hentry, carriedIndex, entryIndex] using hcarried

/-- Settles O50: the carried stage gets what stood at the entry's end, where the invariant has the bit sent last. -/
theorem carriedOutputIsLastBitSent : Obligations.CarriedOutputIsLastBitSent := by
  intro s ⟨_, _, hidle, _, _, hlast, _⟩ hu
  obtain ⟨t, ht, _, _, hbits⟩ := execSeq_xmit hidle
  have hentry : s.srS.getLsbD (entryIndex s.params.srEntry) = s.ser := by
    simpa [State.LastBitAtEntry, hu] using hlast
  exact ⟨t, ht, (hbits.carried (by simp)).trans hentry⟩

/-! ### The display (R131 to R133) -/

/-- `onehot4` sets the bit of its digit and no other (R26, R152). -/
theorem onehot4_getLsbD (p q : BitVec 2) : (onehot4 p).getLsbD q.toNat = decide (q = p) := by
  revert p q; decide

/-- The slot that sends pattern bit `k` is `b(k)`: sending in either order is its own inverse (R123). -/
theorem emitBit_emitBit (order : EmitOrder) {k : Nat} (hk : k < 7) : emitBit order (emitBit order k) = k := by
  cases order with
  | idx0First => rfl
  | idx6First => simp only [emitBit]; omega

/-- A pattern's bits are sent in the seven slots. -/
theorem emitBit_lt_seven (order : EmitOrder) {k : Nat} (hk : k < 7) : emitBit order k < 7 := by
  cases order with
  | idx0First => exact hk
  | idx6First => simp only [emitBit]; omega

theorem segment_bit_lt_seven (x : Segment) : x.bit < 7 := by cases x <;> decide

/-- The glyph-correct wiring puts a segment on the stage where the slot that sends its bit ends up (R131). -/
theorem glyphCorrectWire_index_toNat (order : EmitOrder) (entry : SrEntry) (x : Segment) :
    ((glyphCorrectWire order entry).index x).toNat = stageOf entry 7 (emitBit order x.bit) := by
  cases order <;> cases entry <;> cases x <;> rfl

/-- Where a frame's seven bits stand in the stages, the stage wired to a segment holds the complement of the segment's
bit, so the output is 0 exactly where the segment is ON (R122, R131). -/
theorem srS_glyphCorrect {s : State} (hwire : s.params.GlyphCorrect) (hbits : s.BitsInStages)
    (hseven : bitsShifted s.upc = 7) (x : Segment) :
    s.srS.getLsbD (s.params.segWire.index x).toNat = !Pattern.on s.pat x := by
  have hbit := segment_bit_lt_seven x
  have hslot := emitBit_lt_seven s.params.emitOrder hbit
  have hstage := hbits ⟨_, hslot⟩ (Nat.lt_of_lt_of_eq hslot hseven.symm)
  rw [hseven, slotLevel, emitBit_emitBit _ hbit] at hstage
  rw [hwire, glyphCorrectWire_index_toNat, hstage, Pattern.on]

/-- Settles O51: the outputs are the stages, the stages hold the glyph, and the digit lines enable the position. -/
theorem displayShowsFrameGlyph : Obligations.DisplayShowsFrameGlyph := by
  intro s ⟨_, _, _, hpat, hbits, _, hlatched, hdig, _⟩ hwire hu p x
  obtain ⟨hlo, hseven⟩ : 13 ≤ s.upc.toNat ∧ bitsShifted s.upc = 7 := by obtain hu | hu := hu <;> simp [hu, bitsShifted]
  rw [State.lit, hlatched hlo, hdig (by omega), onehot4_getLsbD, srS_glyphCorrect hwire hbits hseven,
    (hpat (by omega)).2]
  simp

end Sys2Proof.Machine

/-! ## The digit selector: its position, its mask, and the digit lines (42_digit_selector_mux.md) -/

namespace Sys2Proof.Machine

/-! ### The position (R150, R151, R155) -/

/-- The position after a move to the left, as a number (R150). -/
theorem State.shiftLeft_pos_toNat (s : State) : s.shiftLeft.pos.toNat = (s.pos.toNat + 3) % 4 := by
  simp [shiftLeft]

/-- The position after a move to the right, as a number (R151). -/
theorem State.shiftRight_pos_toNat (s : State) : s.shiftRight.pos.toNat = (s.pos.toNat + 1) % 4 := by
  simp [shiftRight]

/-- Settles O35: a move writes `pos` alone, and the sum it writes is the one modulo 4. -/
theorem selectorMovesWrap : Obligations.SelectorMovesWrap := fun s =>
  ⟨congrArg s.setPos (BitVec.eq_of_toNat_eq (s.shiftLeft_pos_toNat.trans (by simp))),
    congrArg s.setPos (BitVec.eq_of_toNat_eq (s.shiftRight_pos_toNat.trans (by simp)))⟩

/-- One move of the position, `shift_left()` or `shift_right()` (R155). -/
def State.move (s : State) (m : Button) : State := if m = .left then s.shiftLeft else s.shiftRight

@[simp] theorem State.move_left (s : State) : s.move .left = s.shiftLeft := rfl

@[simp] theorem State.move_right (s : State) : s.move .right = s.shiftRight := rfl

/-- Moves write `pos` alone. -/
theorem State.foldl_move_eq_setPos (moves : List Button) (s : State) :
    moves.foldl State.move s = s.setPos (moves.foldl State.move s).pos := by
  induction moves generalizing s with
  | nil => rfl
  | cons m moves ih =>
    have hmove (v : BitVec 2) : (s.move m).setPos v = s.setPos v := by cases m <;> rfl
    exact (ih (s.move m)).trans (hmove _)

/-- Each move to the right counts 1 and each to the left -1, modulo 4. -/
theorem State.foldl_move_pos_toNat (moves : List Button) (s : State) :
    ((moves.foldl State.move s).pos.toNat : Int) =
      ((s.pos.toNat : Int) + (moves.count .right : Int) - (moves.count .left : Int)) % 4 := by
  induction moves generalizing s with
  | nil => simp; omega
  | cons m moves ih =>
    rw [List.foldl_cons, ih]
    cases m with
    | left => simp [State.shiftLeft_pos_toNat]; omega
    | right => simp [State.shiftRight_pos_toNat]; omega

/-- Settles O36: by induction on the moves, the position they reach and that they write nothing else. -/
theorem selectorPositionLaw : Obligations.SelectorPositionLaw := by
  rintro moves s _ rfl
  exact ⟨State.foldl_move_pos_toNat moves s, State.foldl_move_eq_setPos moves s⟩

/-! ### The mask (R26, R152) -/

/-- Settles O37: below 4 a bit's number is a digit. -/
theorem currentIsOneHot : Obligations.CurrentIsOneHot := by
  intro s p hp
  have hbit := onehot4_getLsbD s.pos (BitVec.ofNat 2 p)
  rw [BitVec.toNat_ofNat, Nat.mod_eq_of_lt hp] at hbit
  rw [State.current, hbit, decide_eq_true_iff, ← BitVec.toNat_inj, BitVec.toNat_ofNat, Nat.mod_eq_of_lt hp]

/-- A mask that passes for one-hot is that of some digit. -/
theorem exists_eq_onehot4 {m : Nibble} (h : (PinEvent.dig m).oneHot = true) : ∃ p, m = onehot4 p := by
  revert m; decide

/-! ### The digit lines (R132, R153, R154) -/

/-- DRV drives the mask of `pos` in one event (R153). -/
theorem exec_drv (s : State) : exec .drv s = .next { s with
    dig := onehot4 s.pos, trace := s.trace ++ [.dig (onehot4 s.pos)], upc := s.upc + 1#4 } := rfl

/-- Settles O21: the word is DRV's, and DRV drives the mask of `pos`. -/
theorem drvDrivesDigitLines : Obligations.DrvDrivesDigitLines := ⟨decodeWord_encode .drv, exec_drv⟩

/-- Events that do not drive the digit lines leave them as they were. -/
theorem traceDig_eq_self {m : Nibble} {es : List PinEvent} (h : ∀ e ∈ es, e.isDig = false) : traceDig m es = m := by
  induction es with
  | nil => rfl
  | cons e es ih =>
    obtain ⟨he, hes⟩ := List.forall_mem_cons.mp h
    cases e with
    | line => exact ih hes
    | dig => cases he

/-- Once driven, the digit lines hold a mask that was driven. -/
theorem dig_traceDig_mem {m : Nibble} {es : List PinEvent} (h : ∃ e ∈ es, e.isDig = true) :
    .dig (traceDig m es) ∈ es := by
  induction es generalizing m with
  | nil => simp at h
  | cons e es ih =>
    cases e with
    | line =>
      obtain ⟨d, hd, hdig⟩ := h
      cases hd with
      | head => cases hdig
      | tail _ hd => exact List.mem_cons_of_mem _ (ih ⟨d, hd, hdig⟩)
    | dig mask =>
      by_cases hes : ∃ e ∈ es, e.isDig = true
      · exact List.mem_cons_of_mem _ (ih hes)
      · have hlast : traceDig mask es = mask := traceDig_eq_self (by simpa using hes)
        rw [traceDig, hlast]
        exact List.mem_cons_self

/-- With one digit line at 1, only its digit can be lit (R132). -/
theorem State.eq_of_lit {s : State} {p q : BitVec 2} {x : Segment} (hdig : s.dig = onehot4 p)
    (h : s.lit q x = true) : q = p := by
  simp only [lit, hdig, onehot4_getLsbD, Bool.and_eq_true, decide_eq_true_eq] at h
  exact h.1

/-- With every digit line at 0, nothing is lit (R132). -/
theorem State.lit_eq_false {s : State} (hdig : s.dig = 0x0#4) (p : BitVec 2) (x : Segment) : s.lit p x = false := by
  simp [lit, hdig]

/-- Settles O48: the lines hold 0000 while nothing drives them, and afterwards a driven mask, which is one-hot. -/
theorem darkUntilFirstDriveThenOneDigit : Obligations.DarkUntilFirstDriveThenOneDigit := by
  intro s hs
  obtain ⟨_, hdig, hmask, _⟩ := s.traceInv_iff.mp hs
  refine ⟨fun hnone => ?_, fun hsome => ?_⟩
  · have hzero : s.dig = 0x0#4 := hdig.symm.trans (traceDig_eq_self hnone)
    exact ⟨hzero, State.lit_eq_false hzero⟩
  · have hmem : .dig s.dig ∈ s.trace := hdig ▸ dig_traceDig_mem hsome
    obtain ⟨p, hp⟩ := exists_eq_onehot4 (hmask _ hmem)
    exact ⟨p, hp, fun _ _ => State.eq_of_lit hp⟩

end Sys2Proof.Machine

/-! ## The button latches: the edges that set the flags, and the polls that take them (43_button_edge_detector.md) -/

namespace Sys2Proof.Machine

/-! ### The flag's two operations (R171, R172, R174) -/

@[simp] theorem State.setFlag_flag_self (s : State) (w : Button) : s.setFlag w (s.flag w) = s := by
  cases w <;> rfl

/-- The interrupt entry of a button whose flag is 1 changes nothing (R172). -/
theorem State.notify_eq_self {s : State} {w : Button} (h : s.flag w = true) : s.notify w = s := by
  rw [notify, ← h, setFlag_flag_self]

/-- An edge's instruction is the interrupt entry of its button, and nothing else (R171, R226). -/
theorem exec_notifyOf (w : Button) (s : State) : exec (notifyOf w) s = .next (s.notify w) := by
  cases w <;> rfl

/-- An edge's instruction on a flag that is 1 leaves the whole state as it is (R172). -/
theorem exec_notifyOf_of_flag {s : State} {w : Button} (h : s.flag w = true) : exec (notifyOf w) s = .next s := by
  rw [exec_notifyOf, State.notify_eq_self h]

/-- What TakeClear leaves has its flag at 0 (R174). -/
theorem State.takeClear_flag (s : State) (w : Button) : (s.takeClear w).2.flag w = false :=
  s.setFlag_flag w false

/-- Settles O30: TakeClear returns what the flag holds, which is 0 after a TakeClear and 1 after an NTF. -/
theorem takeClearReturnsOnce : Obligations.TakeClearReturnsOnce := by
  intro s w
  refine ⟨rfl, ?_, s.takeClear_flag w, s.setFlag_flag w true⟩
  cases w <;> rfl

/-- Settles O31: on a flag that is 1, the entry of its button changes nothing. -/
theorem secondPressIsLost : Obligations.SecondPressIsLost := fun _ =>
  ⟨exec_notifyOf_of_flag (w := .left), exec_notifyOf_of_flag (w := .right)⟩

/-! ### The edge agents' turns (R171, R180, R181) -/

/-- Settles O26: both words are NTF's, and while `rst_n` is 1 an edge agent's turn is its own NTF. -/
theorem notifySetsOwnFlag : Obligations.NotifySetsOwnFlag :=
  ⟨decodeWord_encode .ntfL, decodeWord_encode .ntfR, fun s => ⟨exec_ntfL s, exec_ntfR s⟩, fun s hr =>
    ⟨(edgeTurn_of_rstN hr .left).trans (exec_ntfL s), (edgeTurn_of_rstN hr .right).trans (exec_ntfR s)⟩⟩

/-- Settles O32: in each order, the second NTF sets its flag in the state that the first one left. -/
theorem notifiesCommute : Obligations.NotifiesCommute := fun s =>
  ⟨execSeq_pair (exec_ntfL s) (exec_ntfR _), execSeq_pair (exec_ntfR s) (exec_ntfL _), exec_ntfL s, exec_ntfR s⟩

/-- While `rst_n` is 0, an edge agent's turn changes nothing (R181; log 4). -/
theorem edgeTurn_of_rstN_eq_false {s : State} (hr : s.rstN = false) (w : Button) : edgeTurn w s = .next s := by
  simp [edgeTurn, hr]

@[simp] theorem State.assertReset_flag (s : State) (w : Button) : s.assertReset.flag w = false := by
  cases w <;> rfl

/-- While `rst_n` is 0, both flags are held at 0 (R181, R250). -/
theorem State.HeldInReset.flag {s : State} (h : s.HeldInReset) (hr : s.rstN = false) (w : Button) :
    s.flag w = false := by
  rw [h hr, assertReset_flag]

/-- Settles O13: with `rst_n` at 0 neither edge agent has a step, and the flags hold their reset value. -/
theorem edgesInResetNotRemembered : Obligations.EdgesInResetNotRemembered := fun _ hr hheld =>
  ⟨edgeTurn_of_rstN_eq_false hr .left, edgeTurn_of_rstN_eq_false hr .right,
    hheld.flag hr .left, hheld.flag hr .right⟩

/-! ### The polls (R175, R176) -/

/-- Settles O22: the word is PLL's, and PLL's whole next state is known. -/
theorem pllPollsLeft : Obligations.PllPollsLeft := ⟨decodeWord_encode .pll, exec_pll⟩

/-- The part of the machine's invariant that says where PLR is reached under `DEFER` (R176, R194). -/
theorem rightOnlyAfterNoLeft_of_inv {s : State} (h : s.Inv) : s.RightOnlyAfterNoLeft := by
  obtain ⟨_, _, _, _, _, _, _, _, hright, _⟩ := h
  exact hright

/-- Settles O23: the word is PLR's, PLR's whole next state is known, and the invariant speaks of its address. -/
theorem plrPollsRight : Obligations.PlrPollsRight :=
  ⟨decodeWord_encode .plr, exec_plr, fun _ => rightOnlyAfterNoLeft_of_inv⟩

end Sys2Proof.Machine

/-! ## The scan FSM: SCAN's steps, the frame they make, and what every step keeps (44_display_scan_fsm.md) -/

namespace Sys2Proof.Machine

/-! ### DLY and INC (R201, R202) -/

/-- DLY goes on to the next address (R201). -/
theorem exec_dly (s : State) : exec .dly s = .next { s with upc := s.upc + 1#4 } := rfl

/-- INC counts the frame value up and goes back to the start of the frame (R202). -/
theorem exec_inc (s : State) : exec .inc s = .next { s with val := s.val + 1#4, upc := 0x1#4 } := rfl

/-- Settles O24: the word is DLY's, and DLY's whole next state is known. -/
theorem dlyOnlyAdvances : Obligations.DlyOnlyAdvances := ⟨decodeWord_encode .dly, exec_dly⟩

/-- No micro-op but INC writes `val` (R202). -/
theorem exec_val_of_ne_inc {i : Instr} {s t : State} (hi : i ≠ .inc) (h : exec i s = .next t) : t.val = s.val := by
  obtain ⟨hval, _⟩ := onlyNamedWritersWrite i s t h
  exact Decidable.byContradiction fun hne => hi (hval hne)

/-- Settles O25: the 4-bit sum that INC writes is the one modulo 16, and INC alone writes `val`. -/
theorem incAdvancesFrameValue : Obligations.IncAdvancesFrameValue := by
  refine ⟨decodeWord_encode .inc, fun s => ?_, fun _ _ _ => exec_val_of_ne_inc⟩
  have hval : BitVec.ofNat 4 ((s.val.toNat + 1) % 16) = s.val + 1#4 := BitVec.eq_of_toNat_eq (by simp)
  rw [exec_inc, hval]

/-! ### SCAN's turn (R191) -/

/-- SCAN's turn is the meaning of the instruction it fetches (R191). -/
theorem scanTurn_eq_exec {s : State} {w : Byte} {i : Instr} (hr : s.rstN = true) (hw : s.fetch = some w)
    (hi : decodeWord w = .ok i) (hn : i.isNotify = false) : scanTurn s = exec i s := by
  simp [scanTurn_of_fetch_eq_some hr hw, runWord, hi, hn]

/-- Settles O6: a scripted step is its turn, and SCAN's turn is the meaning of what it fetches. -/
theorem stepRunsDecodedInstr : Obligations.StepRunsDecodedInstr := fun _ _ _ hr hw hi hn =>
  ⟨scanTurn_eq_exec hr hw hi hn, fun _ hsched =>
    (step_of_sched_cons hsched).trans (scanTurn_eq_exec hr hw hi hn)⟩

/-! ### Placing a word (log 8) -/

/-- What decodes to an instruction that is not NTF is placed for SCAN. -/
theorem State.placeWord_eq_placeScan {w : Byte} {i : Instr} (hi : decodeWord w = .ok i) (hn : i.isNotify = false)
    (s : State) : s.placeWord w = s.placeScan w := by
  rw [placeWord, hi]
  split
  next h => cases h; cases hn
  next h => cases h; cases hn
  next => rfl

/-- A word placed for SCAN stands at an address of UROM, so SCAN fetches it there. -/
theorem exists_step_placeScan (s : State) {w : Byte} {i : Instr} (hwf : Memory.wf s.urom = true)
    (hi : decodeWord w = .ok i) (hn : i.isNotify = false) : ∃ s' : State, step (s.placeScan w) = exec i s' ∧
      s' = { s with rstN := true, upc := s'.upc, urom := s'.urom } ∧ (s.upc ≠ 0xF#4 → s'.upc = s.upc) := by
  have hstep := step_of_sched_cons (s := s.placeScan w) rfl
  refine ⟨_, hstep.trans (scanTurn_eq_exec rfl (Memory.read_write_same w hwf ?_) hi hn), rfl, fun hu => if_neg hu⟩
  split
  · decide
  · bv_omega

/-- Settles O10: an NTF is scripted as its edge agent's turn, and any other word stands where SCAN fetches it. -/
theorem placedWordRunsNext : Obligations.PlacedWordRunsNext := by
  intro s i hwf
  have hi := decodeWord_encode i
  have hw : s.withFetchWord 8 (encode i).toNat = s.placeWord (encode i) := by
    rw [State.withFetchWord, Nat.mod_eq_of_lt (encode i).isLt, BitVec.ofNat_toNat, BitVec.setWidth_eq]
  rw [hw]
  cases hn : i.isNotify with
  | false => rw [State.placeWord_eq_placeScan hi hn]; exact exists_step_placeScan s hwf hi hn
  | true =>
    obtain rfl | rfl : i = .ntfL ∨ i = .ntfR := by cases i <;> simp [Instr.isNotify] at hn ⊢
    · exact ⟨{ s with rstN := true }, rfl, rfl, fun _ => rfl⟩
    · exact ⟨{ s with rstN := true }, rfl, rfl, fun _ => rfl⟩

/-! ### The machine's invariant (R137, R192 to R196, R250) -/

/-- The part of the machine's invariant that turns on where `upc` stands. -/
def State.FrameInv (s : State) : Prop :=
  s.UpcLegal ∧ s.PatternLoaded ∧ s.BitsInStages ∧ s.LastBitAtEntry ∧ s.Latched ∧ s.DigitDriven ∧
  s.RightOnlyAfterNoLeft

/-- The SHB of slot `k` leaves each bit of the frame in the stage that R127 gives it after `k + 1` shifts. -/
theorem shiftIn_slotLevel_getLsbD {entry : SrEntry} {order : EmitOrder} {stages : Byte} {pattern : Pattern} {k : Nat}
    (hk : k < 7) (hs : ∀ j < k, stages.getLsbD (stageOf entry k j) = slotLevel order pattern j) {j : Nat}
    (hj : j < k + 1) :
    (shiftIn entry stages (slotLevel order pattern k)).getLsbD (stageOf entry (k + 1) j) =
      slotLevel order pattern j := by
  obtain hj | rfl := Nat.lt_succ_iff_lt_or_eq.mp hj
  · rw [shiftIn_getLsbD_moved entry stages _ hj (by omega), hs j hj]
  · exact shiftIn_getLsbD_new entry stages _ (by omega)

/-- The bit just sent stands at the entry's end (R127). -/
theorem shiftIn_getLsbD_entryIndex (entry : SrEntry) (stages : Byte) (d : Level) :
    (shiftIn entry stages d).getLsbD (entryIndex entry) = d := by
  cases entry <;> exact shiftIn_getLsbD_new _ stages d (n := 0) (by decide)

/-- Between ENC and PLL, `upc` counts the bits shifted (R192). -/
theorem bitsShifted_eq_sub {u : Nibble} (hlo : 2 ≤ u.toNat) (hhi : u.toNat ≤ 9) : bitsShifted u = u.toNat - 2 := by
  rw [bitsShifted, if_neg (by omega)]
  split <;> omega

/-- SHB of slot `k`, at address `k + 2`, shifts the bit of its slot in behind the bits of the slots before it. -/
theorem exec_slot_keeps_frameInv {s t : State} {i : Instr} {k : Nat} (hslot : i.slot = some k) (hk : k < 7)
    (hu : s.upc = BitVec.ofNat 4 (k + 2)) (hidle : s.PinsIdle) (hs : s.FrameInv) (h : exec i s = .next t) :
    t.FrameInv := by
  obtain ⟨_, hpat, hbits, _⟩ := hs
  obtain ⟨hsrclk, _, hsrclrN⟩ := hidle
  rw [exec_of_slot hslot] at h
  obtain rfl := shiftSlot_next h
  have hfrom : s.upc.toNat = k + 2 := by rw [hu, BitVec.toNat_ofNat, Nat.mod_eq_of_lt (by omega)]
  have hto : (s.upc + 1#4).toNat = k + 3 := by bv_omega
  have hbefore : bitsShifted s.upc = k := (bitsShifted_eq_sub (by omega) (by omega)).trans (by omega)
  have hafter : bitsShifted (s.upc + 1#4) = k + 1 := (bitsShifted_eq_sub (by omega) (by omega)).trans (by omega)
  refine ⟨fun (hF : s.upc + 1#4 = 0xF#4) => by bv_omega, fun _ => hpat (by omega), fun j hj => ?_, ?_,
    fun (hlo : 13 ≤ (s.upc + 1#4).toNat) => by omega, fun (hlo : 12 ≤ (s.upc + 1#4).toNat) => by omega,
    fun (hA : s.upc + 1#4 = 0xA#4) => by bv_omega⟩
  · simp only [hafter, hsrclk, hsrclrN, and_self, if_true] at hj ⊢
    refine shiftIn_slotLevel_getLsbD hk (fun j hj => ?_) hj
    simpa [hbefore] using hbits ⟨j, by omega⟩ (hbefore.symm ▸ hj)
  · have hpast : s.upc + 1#4 ≠ 0x0#4 := by bv_omega
    simp [State.LastBitAtEntry, hpast, hsrclk, hsrclrN, shiftIn_getLsbD_entryIndex]

/-- SCAN's micro-op keeps it: the micro-op fixes the address it stands at, and so what holds before and after it. -/
theorem exec_keeps_frameInv {s t : State} {w : Byte} {i : Instr} (hp : s.FixedProgram) (hidle : s.PinsIdle)
    (hs : s.FrameInv) (hw : s.fetch = some w) (hi : decodeWord w = .ok i) (hn : i.isNotify = false)
    (h : exec i s = .next t) : t.FrameInv := by
  have hu := upc_of_fetch hp hw hi
  have ⟨_, hrclk, _⟩ := hidle
  rcases exec_next h with ⟨rfl, rfl⟩ | ⟨rfl, rfl⟩ | ⟨k, hk7, hk, rfl⟩ | ⟨rfl, rfl⟩ | ⟨rfl, rfl⟩ | ⟨rfl, rfl⟩ |
    ⟨rfl, rfl⟩ | ⟨rfl, rfl⟩ | ⟨rfl, rfl⟩ | ⟨rfl, rfl⟩ | ⟨rfl, rfl⟩
  case inr.inr.inl => exact exec_slot_keeps_frameInv hk hk7 (idxOf_slot hk ▸ hu) hidle hs h
  all_goals simp only [State.FrameInv, State.UpcLegal, State.PatternLoaded, State.BitsInStages, State.LastBitAtEntry,
    State.Latched, State.DigitDriven, State.RightOnlyAfterNoLeft, State.lut] at hs ⊢
  · -- SRST clears the stages, and `SER` is still 0
    replace hu : s.upc = 0x0#4 := hu
    obtain ⟨_, _, _, hser, _⟩ := hs
    simpa [hu, bitsShifted] using hser
  · -- ENC loads the pattern
    replace hu : s.upc = 0x1#4 := hu
    simpa [hu, bitsShifted] using hs
  · -- PLL goes to PLR under `DEFER` only where left was not taken
    replace hu : s.upc = 0x9#4 := hu
    split
    next => simpa [hu, bitsShifted] using hs
    next hskip =>
      obtain ⟨hpat, hbits, hlast⟩ : _ ∧ _ ∧ _ := by simpa [hu, bitsShifted] using hs
      have hlt : s.params.rightPolicy = .defer → s.flagL = false := fun hd =>
        Bool.eq_false_iff.mpr fun hl => hskip ⟨hl, hd⟩
      simpa [hu, bitsShifted] using And.intro hpat ⟨hbits, hlast, hlt⟩
  · -- PLR
    replace hu : s.upc = 0xA#4 := hu
    obtain ⟨hpat, hbits, hlast, _⟩ : _ ∧ _ ∧ _ ∧ _ := by simpa [hu, bitsShifted] using hs
    simpa [hu, bitsShifted] using And.intro hpat ⟨hbits, hlast⟩
  · -- DRV drives the mask of the position
    replace hu : s.upc = 0xB#4 := hu
    simpa [hu, bitsShifted] using hs
  · -- LAT copies the stages, `RCLK` being 0
    replace hu : s.upc = 0xC#4 := hu
    simpa [hu, hrclk, bitsShifted] using hs
  · -- DLY
    replace hu : s.upc = 0xD#4 := hu
    simpa [hu, bitsShifted] using hs
  · -- INC begins a frame, for which nothing was sent yet
    replace hu : s.upc = 0xE#4 := hu
    obtain ⟨_, _, _, hlast, _⟩ := hs
    simpa [hu, bitsShifted] using hlast
  · cases hn -- SCAN runs no NTF
  · cases hn

/-- The state that a change of the reset input leaves meets the invariant, whatever the SIPO holds. -/
theorem State.inv_assertReset {s : State} (hp : s.FixedProgram) (level : Level) :
    State.Inv { s.assertReset with rstN := level } := by
  refine ⟨hp, nofun, ⟨rfl, rfl, rfl⟩, nofun, fun j hj => ?_, rfl, nofun, nofun, nofun, ?_⟩
  · cases hj
  · rintro rfl; rfl

/-- The invariant does not speak of the schedule. -/
theorem State.Inv.schedule {s : State} (hs : s.Inv) (sched : List Turn) (tick : Nat) :
    State.Inv { s with sched := sched, tick := tick } := by
  obtain ⟨hp, hlegal, hidle, hpat, hbits, hlast, hlatched, hdig, hright, hheld⟩ := hs
  exact ⟨hp, hlegal, hidle, hpat, hbits, hlast, hlatched, hdig, hright, fun hr =>
    congrArg (fun u : State => { u with sched := sched, tick := tick }) (hheld hr)⟩

/-- While `rst_n` is 1 the invariant says nothing of reset. -/
theorem State.heldInReset_of_rstN {s : State} (hr : s.rstN = true) : s.HeldInReset := fun h => by
  rw [hr] at h
  cases h

/-- No instruction drives `rst_n` (R30). -/
theorem exec_rstN {i : Instr} {s t : State} (h : exec i s = .next t) : t.rstN = s.rstN := by
  obtain ⟨_, _, _, _, _, _, _, _, _, _, _, _, _, hrstN, _⟩ := onlyNamedWritersWrite i s t h
  exact hrstN

/-- SCAN's micro-op keeps the invariant. -/
theorem exec_keeps_inv {s t : State} {w : Byte} {i : Instr} (hs : s.Inv) (hr : s.rstN = true)
    (hw : s.fetch = some w) (hi : decodeWord w = .ok i) (hn : i.isNotify = false) (h : exec i s = .next t) :
    t.Inv := by
  obtain ⟨hp, hlegal, hidle, hpat, hbits, hlast, hlatched, hdig, hright, _⟩ := hs
  obtain ⟨hlegal, hpat, hbits, hlast, hlatched, hdig, hright⟩ :=
    exec_keeps_frameInv hp hidle ⟨hlegal, hpat, hbits, hlast, hlatched, hdig, hright⟩ hw hi hn h
  exact ⟨(exec_urom h).trans hp, hlegal, exec_keeps_pinsIdle hidle h, hpat, hbits, hlast, hlatched, hdig, hright,
    State.heldInReset_of_rstN ((exec_rstN h).trans hr)⟩

/-- An edge keeps the invariant: it speaks of no flag while `rst_n` is 1. -/
theorem State.Inv.notify {s : State} (hs : s.Inv) (hr : s.rstN = true) (w : Button) : (s.notify w).Inv := by
  obtain ⟨hp, hlegal, hidle, hpat, hbits, hlast, hlatched, hdig, hright, _⟩ := hs
  have hheld : (s.notify w).HeldInReset := heldInReset_of_rstN ((s.setFlag_rstN w true).trans hr)
  cases w <;> exact ⟨hp, hlegal, hidle, hpat, hbits, hlast, hlatched, hdig, hright, hheld⟩

/-- Every turn keeps the invariant. -/
theorem takeTurn_keeps_inv {turn : Turn} {s t : State} (hs : s.Inv) (h : takeTurn turn s = .next t) : t.Inv := by
  have ⟨hp, _⟩ := hs
  rcases takeTurn_next h with ⟨_, hr, w, i, hw, hi, hn, hx⟩ | ⟨hr, w, _, rfl⟩ | ⟨_, rfl⟩ | ⟨_, _, rfl⟩ | ⟨_, rfl⟩
  · exact exec_keeps_inv hs hr hw hi hn hx
  · exact hs.notify hr w
  · exact State.inv_assertReset hp false
  · exact State.inv_assertReset hp true
  · exact hs

/-- Using up a turn keeps the invariant. -/
theorem State.Inv.nextTurn {s : State} (hs : s.Inv) : s.nextTurn.2.Inv := nextTurn_state s ▸ hs.schedule _ _

/-- Settles O42: a step is a turn, and the invariant does not speak of the schedule that the turn comes from. -/
theorem stepKeepsMachineInvariant : Obligations.StepKeepsMachineInvariant := fun _ _ hs h =>
  takeTurn_keeps_inv hs.nextTurn h

/-! ### No turn stops (R198) -/

/-- Every instruction answers a state. -/
theorem exists_exec_eq_next (i : Instr) (s : State) : ∃ t, exec i s = .next t := by
  cases i <;> exact ⟨_, rfl⟩

/-- What SCAN runs at each address of the fixed program (R192). -/
theorem scanTurn_eq_exec_of_getElem? {s : State} {i : Instr} (hp : s.FixedProgram) (hr : s.rstN = true)
    (hi : (Instr.srst :: Pseudo.expand .frame)[s.upc.toNat]? = some i) : scanTurn s = exec i s := by
  have hw : s.fetch = some (encode i) := by rw [State.fetch, hp, Memory.read_nil_eq_map_encode, hi, Option.map_some]
  have hnone : ∀ j ∈ Instr.srst :: Pseudo.expand .frame, j.isNotify = false := by decide
  exact scanTurn_eq_exec hr hw (decodeWord_encode i) (hnone i (List.mem_of_getElem? hi))

/-- An edge agent's turn answers a state, with `rst_n` at 1 and at 0. -/
theorem exists_edgeTurn_eq_next (w : Button) (s : State) : ∃ t, edgeTurn w s = .next t := by
  cases hr : s.rstN with
  | true => exact ⟨_, (edgeTurn_of_rstN hr w).trans (exec_notifyOf w s)⟩
  | false => exact ⟨s, edgeTurn_of_rstN_eq_false hr w⟩

/-- SCAN's turn answers a state: the fixed program has an instruction at every address that `upc` can hold (R198). -/
theorem exists_scanTurn_eq_next {s : State} (hp : s.FixedProgram) (hlegal : s.UpcLegal) :
    ∃ t, scanTurn s = .next t := by
  cases hr : s.rstN with
  | true =>
    have hlt : s.upc.toNat < (Instr.srst :: Pseudo.expand .frame).length := show s.upc.toNat < 15 by bv_omega
    rw [scanTurn_eq_exec_of_getElem? hp hr (List.getElem?_eq_getElem hlt)]
    exact exists_exec_eq_next _ s
  | false => exact ⟨s, by simp [scanTurn, hr]⟩

/-- From a state of the invariant every turn answers a state (R198). -/
theorem exists_takeTurn_eq_next {s : State} (hs : s.Inv) (turn : Turn) : ∃ t, takeTurn turn s = .next t := by
  obtain ⟨hp, hlegal, _⟩ := hs
  cases turn with
  | scan => exact exists_scanTurn_eq_next hp hlegal
  | edgeL => exact exists_edgeTurn_eq_next .left s
  | edgeR => exact exists_edgeTurn_eq_next .right s
  | resetLow => exact ⟨_, rfl⟩
  | resetHigh => exact ⟨_, rfl⟩

/-- Settles O44: by induction on the length of the run, each step answers a state of the invariant. -/
theorem runsNeverStop : Obligations.RunsNeverStop := by
  intro k
  induction k with
  | zero => exact fun s _ => ⟨s, rfl⟩
  | succ k ih =>
    intro s hs
    obtain ⟨u, hu⟩ := exists_takeTurn_eq_next hs.nextTurn s.nextTurn.1
    rw [SafeRun, run_succ hu]
    exact ih u (stepKeepsMachineInvariant s u hs hu)

/-! ### Where `upc` goes (R193) -/

/-- Where `upc` goes in a micro-op of SCAN. -/
theorem exec_upc_of_fetch {s t : State} {w : Byte} {i : Instr} (hp : s.FixedProgram) (hw : s.fetch = some w)
    (hi : decodeWord w = .ok i) (hn : i.isNotify = false) (h : exec i s = .next t) :
    t.upc = if s.upc = 0xE#4 then 0x1#4
      else if s.upc = 0x9#4 ∧ s.flagL = true ∧ s.params.rightPolicy = .defer then 0xB#4 else s.upc + 1#4 := by
  have hu := upc_of_fetch hp hw hi
  rcases exec_next h with ⟨rfl, rfl⟩ | ⟨rfl, rfl⟩ | ⟨k, hk7, hk, rfl⟩ | ⟨rfl, rfl⟩ | ⟨rfl, rfl⟩ | ⟨rfl, rfl⟩ |
    ⟨rfl, rfl⟩ | ⟨rfl, rfl⟩ | ⟨rfl, rfl⟩ | ⟨rfl, rfl⟩ | ⟨rfl, rfl⟩
  case inr.inr.inl =>
    rw [idxOf_slot hk] at hu
    have hE : s.upc ≠ 0xE#4 := by bv_omega
    have h9 : s.upc ≠ 0x9#4 := by bv_omega
    simp [hE, h9]
  · replace hu : s.upc = 0x0#4 := hu -- SRST
    simp [hu]
  · replace hu : s.upc = 0x1#4 := hu -- ENC
    simp [hu]
  · replace hu : s.upc = 0x9#4 := hu -- PLL
    simp [hu]
  · replace hu : s.upc = 0xA#4 := hu -- PLR
    simp [hu]
  · replace hu : s.upc = 0xB#4 := hu -- DRV
    simp [hu]
  · replace hu : s.upc = 0xC#4 := hu -- LAT
    simp [hu]
  · replace hu : s.upc = 0xD#4 := hu -- DLY
    simp [hu]
  · replace hu : s.upc = 0xE#4 := hu -- INC
    simp [hu]
  · cases hn -- SCAN runs no NTF
  · cases hn

/-- Settles O45: SCAN's turn is a micro-op, from 0xF nothing wraps to 0x0, and an edge does not touch `upc`. -/
theorem upcFollowsMicroprogram : Obligations.UpcFollowsMicroprogram := by
  refine fun s t hs hr => ⟨fun h => ?_, fun h => ?_⟩
  · obtain ⟨_, hlegal', _⟩ := takeTurn_keeps_inv hs h
    obtain ⟨hp, hlegal, _⟩ := hs
    obtain ⟨hr0, _⟩ | ⟨_, w, i, hw, hi, hn, hx⟩ := scanTurn_next h
    · rw [hr] at hr0; cases hr0
    · have hto := exec_upc_of_fetch hp hw hi hn hx
      refine ⟨hlegal', ?_, hto⟩
      rw [hto]
      split
      · decide
      · split
        · decide
        · bv_omega
  · obtain ⟨w, hw⟩ : ∃ w, edgeTurn w s = .next t := h.elim (⟨.left, ·⟩) (⟨.right, ·⟩)
    obtain ⟨_, rfl⟩ | ⟨_, rfl⟩ := edgeTurn_next hw
    · rfl
    · exact s.setFlag_upc w true

/-! ### Scripted runs (R59; log 3) -/

/-- Turns taken one after the other, stopping where one stops. -/
def takeTurns : List Turn → State → Host.Outcome State Fault Refusal
  | [], s => .next s
  | turn :: turns, s =>
    match takeTurn turn s with
    | .next t => takeTurns turns t
    | .fault r => .fault r
    | .refused r => .refused r

/-- A turn that answers a state goes on to the turns after it. -/
theorem takeTurns_cons {turn : Turn} {s t : State} (h : takeTurn turn s = .next t) (turns : List Turn) :
    takeTurns (turn :: turns) s = takeTurns turns t := by
  rw [takeTurns, h]

/-- Turns that answer a state are a first one that answers one, and the rest from there. -/
theorem takeTurns_cons_next {turn : Turn} {turns : List Turn} {s t : State}
    (h : takeTurns (turn :: turns) s = .next t) : ∃ u, takeTurn turn s = .next u ∧ takeTurns turns u = .next t := by
  cases hu : takeTurn turn s with
  | next u => exact ⟨u, rfl, by rwa [takeTurns_cons hu] at h⟩
  | fault r => simp [takeTurns, hu] at h
  | refused r => simp [takeTurns, hu] at h

/-- Turns that answer a state go on to the turns after them. -/
theorem takeTurns_append {xs : List Turn} {s t : State} (h : takeTurns xs s = .next t) (ys : List Turn) :
    takeTurns (xs ++ ys) s = takeTurns ys t := by
  induction xs generalizing s with
  | nil => cases h; rfl
  | cons x xs ih =>
    obtain ⟨u, hu, ht⟩ := takeTurns_cons_next h
    rw [List.cons_append, takeTurns_cons hu, ih ht]

/-- The script does not matter to an instruction. -/
theorem exec_sched {i : Instr} {s t : State} (h : exec i s = .next t) (sched : List Turn) :
    exec i { s with sched := sched } = .next { t with sched := sched } := by
  rcases exec_next h with ⟨rfl, rfl⟩ | ⟨rfl, rfl⟩ | ⟨k, _, hk, rfl⟩ | ⟨rfl, rfl⟩ | ⟨rfl, rfl⟩ | ⟨rfl, rfl⟩ |
    ⟨rfl, rfl⟩ | ⟨rfl, rfl⟩ | ⟨rfl, rfl⟩ | ⟨rfl, rfl⟩ | ⟨rfl, rfl⟩
  case inr.inr.inl => exact (exec_of_slot hk _).trans (shiftSlot_eq k _)
  · exact exec_srst _
  · rfl
  · exact exec_pll _
  · exact exec_plr _
  · rfl
  · exact exec_lat _
  all_goals rfl

/-- The script does not matter to a turn, which leaves it as it is. -/
theorem takeTurn_sched {turn : Turn} {s t : State} (h : takeTurn turn s = .next t) (sched : List Turn) :
    takeTurn turn { s with sched := sched } = .next { t with sched := sched } := by
  have hedge {w : Button} (h : edgeTurn w s = .next t) :
      edgeTurn w { s with sched := sched } = .next { t with sched := sched } := by
    obtain ⟨hr, rfl⟩ | ⟨hr, rfl⟩ := edgeTurn_next h
    · exact edgeTurn_of_rstN_eq_false (s := { t with sched := sched }) hr w
    · exact (edgeTurn_of_rstN (s := { s with sched := sched }) hr w).trans (exec_sched (exec_notifyOf w s) sched)
  cases turn with
  | scan =>
    obtain ⟨hr, rfl⟩ | ⟨hr, w, i, hw, hi, hn, hx⟩ := scanTurn_next h
    · simp [takeTurn, scanTurn, hr]
    · exact (scanTurn_eq_exec (s := { s with sched := sched }) hr hw hi hn).trans (exec_sched hx sched)
  | edgeL => exact hedge h
  | edgeR => exact hedge h
  | resetLow => cases h; rfl
  | resetHigh =>
    cases h
    cases hr : s.rstN <;> simp [takeTurn, State.releaseReset, State.assertReset, hr]

/-- A run over scripted turns takes them, and leaves the script's rest. -/
theorem run_takeTurns {turns : List Turn} {s t : State} (h : takeTurns turns s = .next t) (rest : List Turn) :
    Sys2Proof.core.run turns.length { s with sched := turns ++ rest } = .next { t with sched := rest } := by
  induction turns generalizing s with
  | nil => cases h; rfl
  | cons turn turns ih =>
    obtain ⟨u, hu, ht⟩ := takeTurns_cons_next h
    have hstep : step { s with sched := turn :: turns ++ rest } = .next { u with sched := turns ++ rest } :=
      (step_of_sched_cons rfl).trans (takeTurn_sched hu _)
    exact (run_succ hstep).trans (ih ht)

/-- The same from the state that holds the script. -/
theorem run_of_takeTurns {turns rest : List Turn} {s t : State} (hsched : s.sched = turns ++ rest)
    (h : takeTurns turns s = .next t) : Sys2Proof.core.run turns.length s = .next { t with sched := rest } := by
  have hrun := run_takeTurns h rest
  rwa [← hsched] at hrun

/-- SCAN's turn under the fixed program runs the instruction at `upc` (R191, R192). -/
theorem takeTurns_scan {s t : State} {i : Instr} (hp : s.FixedProgram) (hr : s.rstN = true)
    (hi : (Instr.srst :: Pseudo.expand .frame)[s.upc.toNat]? = some i) (h : exec i s = .next t)
    (turns : List Turn) : takeTurns (.scan :: turns) s = takeTurns turns t := by
  have hturn : takeTurn .scan s = .next t := (scanTurn_eq_exec_of_getElem? hp hr hi).trans h
  exact takeTurns_cons hturn turns

/-! ### The poll under edges (R194) -/

/-- Edges while `rst_n` is 1 set the flags of the buttons they are of, and nothing else (R171). -/
theorem takeTurns_edges {edges : List Turn} (hagents : ∀ t ∈ edges, t = .edgeL ∨ t = .edgeR) {s : State}
    (hr : s.rstN = true) : takeTurns edges s = .next { s with
      flagL := s.flagL || decide (.edgeL ∈ edges), flagR := s.flagR || decide (.edgeR ∈ edges) } := by
  induction edges generalizing s with
  | nil => simp [takeTurns]
  | cons e edges ih =>
    obtain ⟨he, hedges⟩ := List.forall_mem_cons.mp hagents
    obtain ⟨_, _, _, hturn⟩ := notifySetsOwnFlag
    obtain ⟨hleft, hright⟩ := hturn s hr
    obtain rfl | rfl := he
    · simp [takeTurns_cons hleft, ih hedges (s := { s with flagL := true }) hr]
    · simp [takeTurns_cons hright, ih hedges (s := { s with flagR := true }) hr]

/-- PLL and the edges after it: left is taken, and what the edges set waits (R194). -/
theorem takeTurns_pll_edges {s : State} {edges : List Turn} (hp : s.FixedProgram) (hr : s.rstN = true)
    (hu : s.upc = 0x9#4) (hagents : ∀ t ∈ edges, t = .edgeL ∨ t = .edgeR) :
    takeTurns (.scan :: edges) s = .next { s with
      lt := s.flagL, flagL := decide (.edgeL ∈ edges), flagR := s.flagR || decide (.edgeR ∈ edges),
      pos := if s.flagL then s.pos + 3#2 else s.pos,
      upc := if s.flagL = true ∧ s.params.rightPolicy = .defer then 0xB#4 else 0xA#4 } := by
  have hpll : (Instr.srst :: Pseudo.expand .frame)[s.upc.toNat]? = some .pll := by rw [hu]; rfl
  refine (takeTurns_scan hp hr hpll (exec_pll s) edges).trans ((takeTurns_edges hagents ?_).trans ?_)
  · exact hr
  · rw [hu]; rfl

/-- Settles O53: PLL and the edges, after which PLR, if it is not skipped, reads the right flag as they left it. -/
theorem pollGivesLeftPriority : Obligations.PollGivesLeftPriority := by
  intro s edges rest hp hr hu hagents skip right turns hsched
  have hturns : takeTurns turns s = .next { s with
      upc := 0xB#4, lt := s.flagL, flagL := decide (.edgeL ∈ edges), flagR := if skip then right else false,
      pos := if s.flagL then s.pos + 3#2 else if right then s.pos + 1#2 else s.pos } := by
    rw [takeTurns_append (takeTurns_pll_edges hp hr hu hagents)]
    by_cases hskip : s.flagL = true ∧ s.params.rightPolicy = .defer
    · simp [takeTurns, skip, right, hskip]
    · rw [if_neg hskip, if_neg hskip]
      refine (takeTurns_scan ?_ ?_ rfl (exec_plr _) []).trans ?_
      · exact hp
      · exact hr
      · by_cases hl : s.flagL = true <;> simp [takeTurns, skip, right, hskip, hl]
  exact run_of_takeTurns hsched hturns

/-! ### The frame value advances (R202, R203) -/

/-- SCAN's turn from a state of the invariant is INC, or leaves `val` alone and moves `upc` up. -/
theorem scanTurn_inc_or_up {s t : State} (hs : s.Inv) (hr : s.rstN = true) (h : scanTurn s = .next t) :
    t.rstN = true ∧
      ((t.val = s.val + 1#4 ∧ t.upc = 0x1#4) ∨ (t.val = s.val ∧ s.upc.toNat < t.upc.toNat)) := by
  obtain ⟨hp, hlegal, _⟩ := hs
  obtain ⟨hr0, _⟩ | ⟨_, w, i, hw, hi, hn, hx⟩ := scanTurn_next h
  · rw [hr] at hr0; cases hr0
  · refine ⟨(exec_rstN hx).trans hr, ?_⟩
    by_cases hinc : i = .inc
    · subst hinc; cases hx; exact .inl ⟨rfl, rfl⟩
    · have hat := getElem?_of_fetch hp hw hi
      have hE : s.upc ≠ 0xE#4 := fun hE => hinc (by simpa [hE, Pseudo.expand, eq_comm] using hat)
      have hto := exec_upc_of_fetch hp hw hi hn hx
      rw [if_neg hE] at hto
      refine .inr ⟨exec_val_of_ne_inc hinc hx, ?_⟩
      split at hto <;> bv_omega

/-- An agent's turn from a state of the invariant runs INC, or leaves `val` alone and moves `upc` up where it is SCAN's
and never down. -/
theorem takeTurn_inc_or_up {turn : Turn} (hagent : turn = .scan ∨ turn = .edgeL ∨ turn = .edgeR) {s t : State}
    (hs : s.Inv) (hr : s.rstN = true) (h : takeTurn turn s = .next t) : t.rstN = true ∧
      ((t.val = s.val + 1#4 ∧ t.upc = 0x1#4) ∨
        (t.val = s.val ∧ s.upc.toNat + [turn].count .scan ≤ t.upc.toNat)) := by
  have hedge {w : Button} (h : edgeTurn w s = .next t) : t.rstN = true ∧ t.val = s.val ∧ t.upc = s.upc := by
    cases (edgeTurn_of_rstN hr w).symm.trans h ▸ exec_notifyOf w s
    exact ⟨(s.setFlag_rstN w true).trans hr, s.setFlag_val w true, s.setFlag_upc w true⟩
  obtain rfl | rfl | rfl := hagent
  · exact scanTurn_inc_or_up hs hr h
  · obtain ⟨hr', hval, hupc⟩ := hedge h
    exact ⟨hr', .inr ⟨hval, by simp [hupc]⟩⟩
  · obtain ⟨hr', hval, hupc⟩ := hedge h
    exact ⟨hr', .inr ⟨hval, by simp [hupc]⟩⟩

/-- A script of agents' turns with enough of SCAN's has a part that ends in INC: SCAN's turns lead up to it, and edges
lead nowhere (R203). -/
theorem exists_takeTurns_inc {turns : List Turn} (hagents : ∀ t ∈ turns, t = .scan ∨ t = .edgeL ∨ t = .edgeR)
    {s : State} (hs : s.Inv) (hr : s.rstN = true) (hcount : 15 ≤ s.upc.toNat + turns.count .scan) :
    ∃ pre post t, turns = pre ++ post ∧ takeTurns pre s = .next t ∧ t.val = s.val + 1#4 ∧ t.upc = 0x1#4 := by
  induction turns generalizing s with
  | nil =>
    obtain ⟨_, hlegal, _⟩ := hs
    rw [List.count_nil] at hcount
    bv_omega
  | cons turn turns ih =>
    obtain ⟨hagent, hrest⟩ := List.forall_mem_cons.mp hagents
    obtain ⟨u, hu⟩ := exists_takeTurn_eq_next hs turn
    obtain ⟨hr', hinc | ⟨hval, hup⟩⟩ := takeTurn_inc_or_up hagent hs hr hu
    · exact ⟨[turn], turns, u, rfl, takeTurns_cons hu [], hinc⟩
    · have hsplit : (turn :: turns).count .scan = [turn].count .scan + turns.count .scan :=
        List.count_append (l₁ := [turn])
      obtain ⟨pre, post, t, rfl, ht, hinc⟩ := ih hrest (takeTurn_keeps_inv hs hu) hr' (by omega)
      exact ⟨turn :: pre, post, t, rfl, (takeTurns_cons hu pre).trans ht, hval ▸ hinc⟩

/-- Settles O56: `upc` starts at 0 or more, so fifteen of SCAN's turns are enough. -/
theorem frameValueAdvances : Obligations.FrameValueAdvances := by
  intro s turns rest hs hr hsched hagents hcount
  obtain ⟨pre, post, t, rfl, ht, hval, hupc⟩ := exists_takeTurns_inc hagents hs hr (by omega)
  rw [List.append_assoc] at hsched
  exact ⟨pre.length, by simp, _, run_of_takeTurns hsched ht, hval, hupc⟩

/-! ### SCAN's turns of one frame (R192, R197) -/

/-- `n` of SCAN's turns under the fixed program lead from one state to the other. -/
def ScansTo (n : Nat) (s t : State) : Prop :=
  s.FixedProgram → s.rstN = true →
    t.FixedProgram ∧ t.rstN = true ∧ takeTurns (List.replicate n .scan) s = .next t

theorem ScansTo.refl (s : State) : ScansTo 0 s s := fun hp hr => ⟨hp, hr, rfl⟩

theorem ScansTo.trans {m n : Nat} {s t u : State} (h₁ : ScansTo m s t) (h₂ : ScansTo n t u) :
    ScansTo (m + n) s u := by
  intro hp hr
  obtain ⟨hp, hr, ht⟩ := h₁ hp hr
  obtain ⟨hp, hr, hu⟩ := h₂ hp hr
  exact ⟨hp, hr, by rw [← List.replicate_append_replicate, takeTurns_append ht, hu]⟩

/-- One turn runs the instruction at `upc`. -/
theorem scansTo_of_exec {s t : State} {i : Instr}
    (hi : (Instr.srst :: Pseudo.expand .frame)[s.upc.toNat]? = some i) (h : exec i s = .next t) :
    ScansTo 1 s t := fun hp hr =>
  ⟨(exec_urom h).trans hp, (exec_rstN h).trans hr, takeTurns_scan hp hr hi h []⟩

/-- The first `n` bits of `transmit(pattern)` (R121). -/
def State.transmitUpTo (s : State) (pattern : Pattern) (n : Nat) : State :=
  (List.range n).foldl (fun s k => s.shiftBit (slotLevel s.params.emitOrder pattern k)) s

theorem State.transmit_eq (s : State) (pattern : Pattern) : s.transmit pattern = s.transmitUpTo pattern 7 := rfl

theorem State.transmitUpTo_succ (s : State) (pattern : Pattern) (n : Nat) :
    s.transmitUpTo pattern (n + 1) = (s.transmitUpTo pattern n).shiftBit
      (slotLevel (s.transmitUpTo pattern n).params.emitOrder pattern n) := by
  simp [transmitUpTo, List.range_succ]

/-- What transmission leaves alone, of what the SHB and the polls read. -/
theorem State.transmitUpTo_frame (s : State) (pattern : Pattern) (n : Nat) :
    (s.transmitUpTo pattern n).upc = s.upc ∧ (s.transmitUpTo pattern n).pat = s.pat ∧
      (s.transmitUpTo pattern n).flagL = s.flagL ∧ (s.transmitUpTo pattern n).params = s.params := by
  induction n with
  | zero => exact ⟨rfl, rfl, rfl, rfl⟩
  | succ n ih => rw [transmitUpTo_succ, shiftBit_eq]; exact ih

/-- At address `n + 2` stands the SHB of slot `n` (R192). -/
theorem exists_slot_at {n : Nat} (hn : n < 7) :
    ∃ i, (Instr.srst :: Pseudo.expand .frame)[n + 2]? = some i ∧ i.slot = some n := by
  have h : ∀ n < 7, (Instr.srst :: Pseudo.expand .frame)[n + 2]?.bind Instr.slot = some n := by decide
  exact Option.bind_eq_some_iff.mp (h n hn)

/-- The SHB from address 2 on send the first bits of `pat`. -/
theorem scansTo_transmitUpTo (s : State) {n : Nat} (hn : n ≤ 7) :
    ScansTo n (s.setUpc 0x2#4) ((s.transmitUpTo s.pat n).setUpc (BitVec.ofNat 4 (n + 2))) := by
  induction n with
  | zero => exact ScansTo.refl _
  | succ n ih =>
    obtain ⟨i, hi, hslot⟩ := exists_slot_at hn
    obtain ⟨_, hpat, _⟩ := s.transmitUpTo_frame s.pat n
    have hnext : BitVec.ofNat 4 (n + 1 + 2) = BitVec.ofNat 4 (n + 2) + 1#4 := BitVec.ofNat_add (n + 2) 1
    refine (ih (by omega)).trans (scansTo_of_exec (i := i) ?_ ?_)
    · rwa [State.setUpc_upc, BitVec.toNat_ofNat, Nat.mod_eq_of_lt (by omega)]
    · rw [exec_of_slot hslot, shiftSlot_eq, State.transmitUpTo_succ, State.shiftBit_eq, hnext]
      simp [State.setUpc, hpat]

/-- The poll, by what is known before it (R194). -/
theorem State.poll_eq (s : State) : s.poll =
    if s.flagL && s.params.rightPolicy = .defer then s.pollLeft else s.pollLeft.pollRight := by
  rw [poll, pollLeft_eq]
  rfl

/-- PLL, and PLR unless it is skipped, are the poll (R194). -/
theorem scansTo_poll (s : State) :
    ScansTo (if s.flagL && s.params.rightPolicy = .defer then 1 else 2) (s.setUpc 0x9#4) (s.poll.setUpc 0xB#4) := by
  by_cases hskip : s.flagL = true ∧ s.params.rightPolicy = .defer
  · have hpoll : s.poll = s.pollLeft := by simp [State.poll_eq, hskip]
    have hpll : exec .pll (s.setUpc 0x9#4) = .next (s.poll.setUpc 0xB#4) := by
      rw [hpoll, exec_pll, State.setUpc_flagL, State.setUpc_params, if_pos hskip, State.pollLeft_eq]; rfl
    simpa [hskip] using scansTo_of_exec (i := .pll) rfl hpll
  · have hpoll : s.poll = s.pollLeft.pollRight := by simp [State.poll_eq, hskip]
    have hpll : exec .pll (s.setUpc 0x9#4) = .next (s.pollLeft.setUpc 0xA#4) := by
      rw [exec_pll, State.setUpc_flagL, State.setUpc_params, if_neg hskip, State.pollLeft_eq]; rfl
    have hplr : exec .plr (s.pollLeft.setUpc 0xA#4) = .next (s.poll.setUpc 0xB#4) := by
      rw [hpoll, exec_plr, State.pollRight_eq]; rfl
    simpa [hskip] using (scansTo_of_exec (i := .pll) rfl hpll).trans (scansTo_of_exec (i := .plr) rfl hplr)

/-- The turns of a frame are FRAME(), one instruction after the other (R197). -/
theorem scansTo_frame (s : State) : ScansTo s.frameSteps (s.setUpc 0x1#4) (s.frame.setUpc 0x1#4) := by
  have henc : ScansTo 1 (s.setUpc 0x1#4) ((s.setPat (s.lut s.val)).setUpc 0x2#4) :=
    scansTo_of_exec (i := .enc) rfl rfl
  have hxmit := scansTo_transmitUpTo (s.setPat (s.lut s.val)) (Nat.le_refl 7)
  have hpoll := scansTo_poll ((s.setPat (s.lut s.val)).transmit (s.lut s.val))
  have hdrv (t : State) : ScansTo 1 (t.setUpc 0xB#4) ((t.pinWriteDig t.current).setUpc 0xC#4) :=
    scansTo_of_exec (i := .drv) rfl rfl
  have hlat (t : State) : ScansTo 1 (t.setUpc 0xC#4) (t.latchPulse.setUpc 0xD#4) :=
    scansTo_of_exec (i := .lat) rfl (by rw [exec_lat, State.latchPulse_eq]; rfl)
  have hdly (t : State) : ScansTo 1 (t.setUpc 0xD#4) ((t.wait t.params.frameDelayMicros).setUpc 0xE#4) :=
    scansTo_of_exec (i := .dly) rfl rfl
  have hinc (t : State) : ScansTo 1 (t.setUpc 0xE#4) ((t.setVal (t.val + 1#4)).setUpc 0x1#4) :=
    scansTo_of_exec (i := .inc) rfl rfl
  have hframe := (henc.trans hxmit).trans (hpoll.trans ((hdrv _).trans ((hlat _).trans ((hdly _).trans (hinc _)))))
  obtain ⟨_, _, hflagL, hparams⟩ := (s.setPat (s.lut s.val)).transmitUpTo_frame (s.lut s.val) 7
  rw [State.transmit_eq, hflagL, hparams] at hframe
  have hsteps : s.frameSteps =
      1 + 7 + ((if s.flagL && s.params.rightPolicy = .defer then 1 else 2) + (1 + (1 + (1 + 1)))) := by
    rw [State.frameSteps]; split <;> rfl
  rw [hsteps]
  exact hframe

/-- FRAME() has no `upc` of its own. -/
theorem State.frame_upc (s : State) : s.frame.upc = s.upc := by
  have hpoll (t : State) : t.poll.upc = t.upc := by
    rw [poll_eq]
    split
    · rw [pollLeft_eq]
    · rw [pollRight_eq, pollLeft_eq]
  obtain ⟨hupc, _⟩ := (s.setPat (s.lut s.val)).transmitUpTo_frame (s.lut s.val) 7
  simp [frame, latchPulse_eq, pinWriteDig_eq, wait, hpoll, transmit_eq, hupc]

/-- Settles O54: the turns of a frame lead from address 1 to address 1, where FRAME() leaves `upc`. -/
theorem frameRefinesFunction : Obligations.FrameRefinesFunction := by
  intro s rest hp hr hu hsched
  have hfrom : s.setUpc 0x1#4 = s := hu ▸ rfl
  have hto : s.frame.setUpc 0x1#4 = s.frame := by rw [← hu, ← s.frame_upc]; rfl
  obtain ⟨_, _, hturns⟩ := scansTo_frame s hp hr
  rw [hfrom, hto] at hturns
  simpa using run_of_takeTurns hsched hturns

end Sys2Proof.Machine

/-! ## Edges and the scan: the order of an NTF and a micro-op (60_exceptions.md) -/

namespace Sys2Proof.Machine

/-! ### An NTF beside another instruction (R225) -/

/-- An instruction that does not poll `w` neither reads nor clears the flag of `w`: entered with the edge already noted,
it leaves the same state with the edge noted. -/
theorem exec_notify {i : Instr} {w : Button} {s t : State} (hi : i ≠ (if w = .left then .pll else .plr))
    (h : exec i s = .next t) : exec i (s.notify w) = .next (t.notify w) := by
  rcases exec_next h with ⟨rfl, rfl⟩ | ⟨rfl, rfl⟩ | ⟨k, _, hk, rfl⟩ | ⟨rfl, rfl⟩ | ⟨rfl, rfl⟩ | ⟨rfl, rfl⟩ |
    ⟨rfl, rfl⟩ | ⟨rfl, rfl⟩ | ⟨rfl, rfl⟩ | ⟨rfl, rfl⟩ | ⟨rfl, rfl⟩
  · cases w <;> exact exec_srst _
  · cases w <;> rfl
  · cases w <;> exact (exec_of_slot hk _).trans (shiftSlot_eq k _)
  · cases w with
    | left => exact absurd rfl hi
    | right => exact exec_pll _
  · cases w with
    | left => exact exec_plr _
    | right => exact absurd rfl hi
  · cases w <;> exact exec_drv _
  · cases w <;> exact exec_lat _
  · cases w <;> exact exec_dly _
  · cases w <;> exact exec_inc _
  · cases w <;> exact exec_ntfL _
  · cases w <;> exact exec_ntfR _

/-- Settles O33: in both orders the instruction's next state ends with the edge noted. -/
theorem notifyCommutesWithOtherOps : Obligations.NotifyCommutesWithOtherOps := by
  intro i w s t hi h
  have hafter : execSeq [i, notifyOf w] s = .next (t.notify w) := execSeq_pair h (exec_notifyOf w t)
  have hbefore : execSeq [notifyOf w, i] s = .next (t.notify w) :=
    execSeq_pair (exec_notifyOf w s) (exec_notify hi h)
  exact ⟨hafter.trans hbefore.symm, _, hbefore⟩

end Sys2Proof.Machine

/-! ## Reset and hazards: the reset input, the first step after reset, and what the display shows before a latch
(70_reset_and_hazards.md) -/

namespace Sys2Proof.Machine

/-! ### The reset input (R250, R254) -/

/-- While `rst_n` is 0, SCAN's turn changes nothing (R250; log 4). -/
theorem scanTurn_of_rstN_eq_false {s : State} (hr : s.rstN = false) : scanTurn s = .next s := by
  simp [scanTurn, hr]

/-- The rise of `rst_n` starts the block from its reset state (R250). -/
theorem State.releaseReset_of_rstN_eq_false {s : State} (hr : s.rstN = false) :
    s.releaseReset = { s.assertReset with rstN := true } := by
  simp [releaseReset, hr]

/-- Every turn keeps the block held in reset: only the reset input's turn drives `rst_n` to 0, and it sets the whole
block; every other turn leaves `rst_n` at 1 or changes nothing (R250). -/
theorem takeTurn_keeps_heldInReset {turn : Turn} {s t : State} (hs : s.HeldInReset)
    (h : takeTurn turn s = .next t) : t.HeldInReset := by
  rcases takeTurn_next h with ⟨_, hr, _, _, _, _, _, hx⟩ | ⟨hr, w, _, rfl⟩ | ⟨_, rfl⟩ | ⟨_, _, rfl⟩ | ⟨_, rfl⟩
  · exact State.heldInReset_of_rstN ((exec_rstN hx).trans hr)
  · exact State.heldInReset_of_rstN ((s.setFlag_rstN w true).trans hr)
  · exact fun _ => rfl
  · exact State.heldInReset_of_rstN rfl
  · exact hs

/-- Settles O12: with `rst_n` at 0 no agent has a step, every turn keeps the block held, and what is held is the reset
state. -/
theorem resetHoldsAndReleases : Obligations.ResetHoldsAndReleases := by
  refine ⟨fun s hr => ?_, fun _ _ _ => takeTurn_keeps_heldInReset, fun s hr hheld => ?_⟩
  · exact ⟨scanTurn_of_rstN_eq_false hr, edgeTurn_of_rstN_eq_false hr .left, edgeTurn_of_rstN_eq_false hr .right,
      congrArg _ (State.releaseReset_of_rstN_eq_false hr)⟩
  · rw [hheld hr]
    exact ⟨rfl, rfl, rfl, rfl, rfl, rfl, rfl, rfl, rfl, rfl, rfl, rfl⟩

/-- Under the fixed program SCAN's turn at address 0 is SRST (R192). -/
theorem scanTurn_of_upc_eq_zero {s : State} (hp : s.FixedProgram) (hr : s.rstN = true) (hu : s.upc = 0x0#4) :
    scanTurn s = exec .srst s :=
  scanTurn_eq_exec_of_getElem? hp hr (by rw [hu]; rfl)

/-- Settles O14: the asserted reset drives every digit line to 0, and its release leaves `upc` at SRST's address. -/
theorem resetDuringRunRestarts : Obligations.ResetDuringRunRestarts := fun s =>
  ⟨s.assertReset, rfl, rfl, State.lit_eq_false rfl, { s.assertReset with rstN := true },
    congrArg _ (State.releaseReset_of_rstN_eq_false rfl), rfl, fun hp => scanTurn_of_upc_eq_zero hp rfl rfl⟩

/-! ### The reset state and the first step from it (R251, R252) -/

/-- Settles O11: the values are those of the definition, and SRST clears whatever the SIPO holds. -/
theorem resetLeavesSpecValues : Obligations.ResetLeavesSpecValues := by
  refine ⟨0x00#8, 0x00#8, rfl, ?_⟩
  rintro stages outputs _ rfl
  exact ⟨rfl, rfl, rfl, rfl, rfl, rfl, rfl, rfl, rfl, rfl, rfl, rfl, rfl, rfl, rfl, _, exec_srst _, rfl, rfl⟩

/-- The reset state is the one that a release of the reset input leaves. -/
theorem State.inv_resetWith (stages outputs : Byte) : (State.resetWith stages outputs).Inv :=
  inv_assertReset (s := State.resetWith stages outputs) rfl true

/-- Settles O43: the state that a change of the reset input leaves meets the invariant, and reset is such a state. -/
theorem resetMeetsMachineInvariant : Obligations.ResetMeetsMachineInvariant :=
  ⟨State.inv_resetWith, State.inv_resetWith 0x00#8 0x00#8⟩

/-- Settles O15: the scripted step is SCAN's turn at address 0, which is SRST, whose whole next state is known. -/
theorem firstScanStepIsSrst : Obligations.FirstScanStepIsSrst := by
  intro stages outputs rest
  have hstep : step { State.resetWith stages outputs with sched := .scan :: rest } =
      exec .srst { State.resetWith stages outputs with sched := rest } := by
    rw [step_of_sched_cons rfl]
    exact scanTurn_of_upc_eq_zero rfl rfl rfl
  exact ⟨_, hstep.trans (exec_srst _), exec_srst _, rfl, rfl, rfl, rfl, rfl⟩

/-! ### The outputs before the first latch (R259) -/

/-- With one digit line at 1, its digit alone shows what the outputs hold (R132). -/
theorem State.lit_eq_of_dig {s : State} {q : BitVec 2} (hdig : s.dig = onehot4 q) (p : BitVec 2) (x : Segment) :
    s.lit p x = (decide (p = q) && !s.srQ.getLsbD (s.params.segWire.index x).toNat) := by
  rw [lit, hdig, onehot4_getLsbD]

/-- SCAN's micro-op keeps the outputs blank: SRST clears them, LAT is a rise of `RCLK`, and no other micro-op changes
them; before all of these `upc` has left address 0, where only SRST runs. -/
theorem exec_keeps_blankBeforeLatch {s t : State} {w : Byte} {i : Instr} (hp : s.FixedProgram)
    (hidle : s.PinsIdle) (hlev : s.LevelsTraced) (hs : s.BlankBeforeLatch) (hw : s.fetch = some w)
    (hi : decodeWord w = .ok i) (h : exec i s = .next t) : t.BlankBeforeLatch := by
  intro _ hrises
  rw [exec_rises_rclk hlev hidle h] at hrises
  by_cases hsrst : i = .srst
  · subst hsrst
    cases (exec_srst s).symm.trans h
    rfl
  · have hlat : i ≠ .lat := by rintro rfl; simp at hrises
    have hupc : s.upc ≠ 0x0#4 := fun hu =>
      hsrst (by simpa [hu, eq_comm] using getElem?_of_fetch hp hw hi)
    obtain ⟨_, hchange⟩ := outputsChangeOnlyOnLatchOrClear
    have hkeep : t.srQ = s.srQ := Decidable.byContradiction fun hne =>
      (hchange i s t h hne).elim hlat hsrst
    rw [hkeep, hs hupc (by omega)]

/-- Every turn keeps the outputs blank: an edge touches neither them nor the trace, and the reset input sets `upc` to
0. -/
theorem takeTurn_keeps_blankBeforeLatch {turn : Turn} {s t : State} (hp : s.FixedProgram) (hidle : s.PinsIdle)
    (hlev : s.LevelsTraced) (hs : s.BlankBeforeLatch) (h : takeTurn turn s = .next t) : t.BlankBeforeLatch := by
  rcases takeTurn_next h with ⟨_, _, w, i, hw, hi, _, hx⟩ | ⟨_, b, _, rfl⟩ | ⟨_, rfl⟩ | ⟨_, _, rfl⟩ | ⟨_, rfl⟩
  · exact exec_keeps_blankBeforeLatch hp hidle hlev hs hw hi hx
  · cases b <;> exact hs
  · exact fun hu => absurd rfl hu
  · exact fun hu => absurd rfl hu
  · exact hs

/-- Settles O52: DRV enables one digit and leaves the outputs alone, a step is a turn, which keeps the outputs blank,
and at LAT's address the invariant has the digit of the position enabled. -/
theorem staleGlyphBetweenDriveAndLatch : Obligations.StaleGlyphBetweenDriveAndLatch := by
  refine ⟨fun s => ⟨_, exec_drv s, rfl, State.lit_eq_of_dig rfl⟩, fun _ _ hu => absurd rfl hu, ?_, ?_⟩
  · intro s t ⟨hp, _, hidle, _⟩ ⟨hlev, _⟩ hs h
    refine takeTurn_keeps_blankBeforeLatch (s := s.nextTurn.2) ?_ ?_ ?_ ?_ h <;> rw [nextTurn_state]
    · exact hp
    · exact hidle
    · exact hlev
    · exact hs
  · intro s ⟨_, _, _, _, _, _, _, hdig, _⟩ hs hu hrises p x
    have hblank : s.srQ = 0x00#8 := hs (by simp [hu]) hrises
    rw [State.lit_eq_of_dig (hdig (by simp [hu])), hblank]
    simp

/-! ### The events of a frame (R135, R262) -/

/-- The events of the SHB of slot `k`: the data, then a pulse of `SRCLK` (R124, R257). -/
def slotEvents (order : EmitOrder) (pattern : Pattern) (k : Nat) : List PinEvent :=
  [.line .ser (slotLevel order pattern k), .line .srclk true, .line .srclk false]

/-- The first bits of `transmit(pattern)` leave the events of their slots, in order (R121, R124). -/
theorem State.transmitUpTo_trace (s : State) (pattern : Pattern) (n : Nat) :
    (s.transmitUpTo pattern n).trace =
      s.trace ++ (List.range n).flatMap (slotEvents s.params.emitOrder pattern) := by
  induction n with
  | zero => simp [transmitUpTo]
  | succ n ih =>
    obtain ⟨_, _, _, hparams⟩ := s.transmitUpTo_frame pattern n
    rw [transmitUpTo_succ, shiftBit_eq, hparams, ih, List.range_succ]
    simp [slotEvents]

/-- The poll emits nothing (R175, R176). -/
@[simp] theorem State.poll_trace (s : State) : s.poll.trace = s.trace := by
  rw [poll_eq, pollRight_eq, pollLeft_eq]
  split <;> rfl

/-- What FRAME() emits: the events of the seven slots, the mask of the position it leaves, and the pulse of `RCLK`
(R197, R262). -/
theorem State.frame_trace (s : State) : s.frame.trace = s.trace ++
    (List.range 7).flatMap (slotEvents s.params.emitOrder (s.lut s.val)) ++
    [.dig (onehot4 s.frame.pos), .line .rclk true, .line .rclk false] := by
  simp [frame, latchPulse_eq, pinWriteDig_eq, wait, current, transmit_eq, transmitUpTo_trace]

/-- Settles O55: the turns of a frame give FRAME(), whose events are known. -/
theorem frameEmitsTwentyFourEvents : Obligations.FrameEmitsTwentyFourEvents := by
  intro s rest hp hr hu hsched
  have hslots : slotEvents s.params.emitOrder (s.lut s.val) = fun k =>
      [.line .ser (!(s.lut s.val).getLsbD (if s.params.emitOrder = .idx0First then k else 6 - k)),
        .line .srclk true, .line .srclk false] := by
    funext k
    rw [slotEvents, slotLevel_eq_ite]
  have htrace := s.frame_trace
  have hlength : s.frame.trace.length = s.trace.length + 24 := by
    rw [htrace]
    simp [slotEvents, List.range_succ]
  rw [hslots] at htrace
  exact ⟨_, _, frameRefinesFunction s rest hp hr hu hsched, rfl, htrace, hlength⟩

end Sys2Proof.Machine
